-- ==== Sys2Proof/Word.lean ====
section
/-! DEFINITION. The word types of the block (spec 00_scope.md R9): the host data path is 32 bits wide, a normalised
word 16 bits, a device register number and a device data byte 8 bits each. -/

namespace Sys2Proof

/-- A word of the host port (R9: 32 bits). -/
abbrev Word := BitVec 32

/-- A device word as the decoder sees it (R9: device read data, 16 bits). -/
abbrev Half := BitVec 16

/-- A device byte or a device register number (R9: 8 bits). -/
abbrev Byte := BitVec 8

end Sys2Proof
end

