-- ==== Sys2Proof/Machine/Environment.lean ====
section
/-! DEFINITION. The moves of the agents around the sequencer (spec 10_state.md R20): what the bus environment may answer,
what the host may do, and which agent takes the next step of the one total order of 20_memory.md R91. -/

namespace Sys2Proof.Machine

/-- Fatal cause codes (60_exceptions.md R221). -/
inductive ErrCode where
  | none
  | addrNack
  | regNack
  | dataNack
  | raddrNack
  | arbLost
  | timeout
deriving DecidableEq, Repr, Inhabited

/-- The oracle's answer to a BusWriteByte (20_memory.md R75): acknowledged, or one of the failures that R82 allows in a
write. `sclHeld` is a target that holds SCL low longer than any finite BUS_TIMEOUT (R98). -/
inductive WriteReply where
  | ack
  | addrNack
  | regNack
  | dataNack
  | arbLost
  | sclHeld
deriving DecidableEq, Repr, Inhabited

/-- The oracle's answer to a BusReadWord (20_memory.md R75): two bytes in wire order, or one of the failures that R82
allows in a read. -/
inductive ReadReply where
  | ack (b0 b1 : Byte)
  | addrNack
  | regNack
  | raddrNack
  | arbLost
  | sclHeld
deriving DecidableEq, Repr, Inhabited

/-- One line of a host program (30_encoding.md R108). `addr` is the word offset `h_addr`, the byte offset's bits 9 to 2
(10_state.md R25). -/
inductive HostLine where
  | write (addr : BitVec 8) (data : Word)
  | read (addr : BitVec 8)
  | poll (addr : BitVec 8) (mask value : Word)
deriving DecidableEq, Repr, Inhabited

/-- Whose step comes next in the total order of 20_memory.md R91. -/
inductive Event where
  /-- the host takes its next access (R123, R124) -/
  | host
  /-- the sequencer takes its next step, if one is enabled; the bus environment answers inside it (R75, R80, R81) -/
  | sequencer
  /-- the transaction of the sequencer's next step goes onto the wires, so that the steps up to that one, a cancel request
  among them, find it in progress (43_acquisition.md R181, log 25) -/
  | busStart
  /-- the timer lets `δ` pass (60_exceptions.md R240) -/
  | timer (δ : Rat)
  /-- the environment step that samples `cancel_i` (43_acquisition.md R178) -/
  | cancelSample (level : Bool)
  /-- the reset input takes the level `rstN`, active low (70_reset_and_hazards.md R250) -/
  | resetLevel (rstN : Bool)
deriving DecidableEq, Repr, Inhabited

end Sys2Proof.Machine
end

