-- ==== Sys2Proof/Config.lean ====
section
/-! DEFINITION. The implementation parameters (spec 00_scope.md R8) and the free values: what the spec leaves open is an
opaque constant with no body, so that no proof can rest on a value of it (log 8, log 24). -/

namespace Sys2Proof

open Sys2Proof.Machine

/-- The parameters of 00_scope.md R8, in the table's order. Times are in seconds and frequencies in hertz (log 6). A
`busTimeout` of `none` is the infinite one. -/
structure Config where
  devAddrDefault : BitVec 7
  swapDefault    : Bool
  settleTime     : Rat
  frameInterval  : Rat
  clkHz          : Rat
  i2cSclHz       : Rat
  busTimeout     : Option Rat
deriving DecidableEq, Repr

/-- CLK_HZ, OPEN (92_eei_decisions.md D39). -/
opaque Config.openClkHz : Rat

/-- I2C_SCL_HZ, OPEN (92_eei_decisions.md D21). -/
opaque Config.openI2cSclHz : Rat

/-- BUS_TIMEOUT, OPEN and perhaps infinite (92_eei_decisions.md D19). -/
opaque Config.openBusTimeout : Option Rat

/-- The defaults of 00_scope.md R8: 0x69, no swap, 100 ms, 1000 ms; the OPEN parameters stay uninterpreted. -/
def Config.defaults : Config where
  devAddrDefault := 0x69
  swapDefault    := false
  settleTime     := 1 / 10
  frameInterval  := 1
  clkHz          := Config.openClkHz
  i2cSclHz       := Config.openI2cSclHz
  busTimeout     := Config.openBusTimeout

/-- An implementation counts `ceil(t · CLK_HZ)` ticks of `clk` for a wait of `t` (60_exceptions.md R240). -/
def Config.waitTicks (c : Config) (t : Rat) : Nat := (t * c.clkHz).ceil.toNat

/-- The agent step that comes when the schedule names none (20_memory.md R91, log 1). -/
opaque Config.freeEvent : Nat → Event

/-- The access the host makes when its program names none (10_state.md R48, log 3). -/
opaque Config.freeHostLine : Nat → HostLine

/-- The oracle's answer to a write that no listed reply answers (20_memory.md R75, log 4). -/
opaque Config.freeWriteReply : Nat → WriteReply

/-- The oracle's answer to a read that no listed reply answers (20_memory.md R75, log 4). -/
opaque Config.freeReadReply : Nat → ReadReply

/-- `sda_oe` while the transaction that is entry `n` of the history, counted from 1, never ends (20_memory.md R98, log 26). -/
opaque Config.freeSdaOe : (n : Nat) → Bool

/-- `(scl_oe, sda_oe)` at time `t` while the transaction that will be the history's next entry, after `n` others, is in
progress (20_memory.md R77, log 26). -/
opaque Config.freePulls : (n : Nat) → (t : Rat) → Bool × Bool

/-- Where in its sequence the transaction that is entry `n` of the history, counted from 1, was cut: a number that picks one
of the places (20_memory.md R82, log 27). -/
opaque Config.freeCut : (n : Nat) → Nat

/-- The bytes the target sent in the read that is entry `n` of the history and was cut (20_memory.md R75, log 27). -/
opaque Config.freeCutBytes : (n : Nat) → Byte × Byte

/-- `(scl_oe, sda_oe)` of the other end while the block attempts the STOP of the transaction that is entry `n` of the history
and was cut (20_memory.md R82, log 27). -/
opaque Config.freeOtherPulls : (n : Nat) → Vector (Bool × Bool) 4

/-- `pix[i].raw` after the reset that took draw `n` (70_reset_and_hazards.md R250, log 9). -/
opaque Config.freeRaw : (n i : Nat) → Half

/-- `pix[i].band` after the reset that took draw `n` (70_reset_and_hazards.md R250, log 9). -/
opaque Config.freeBand : (n i : Nat) → BitVec 3

end Sys2Proof
end

