-- ==== Sys2Proof/Syntax.lean ====
section
/-! DEFINITION. The block's instructions: the commands a host writes into CMD (spec 00_scope.md R7, 30_encoding.md
R101), one constructor for each row of spec/opcode_table.json. Operand widths are those of R106. -/

namespace Sys2Proof

inductive Instr where
  /-- nothing (40_bus_primitives.md R120) -/
  | nop
  /-- one device byte write (40_bus_primitives.md R121) -/
  | wrbyte (reg data : Byte)
  /-- one device word read, normalised and decoded (40_bus_primitives.md R122) -/
  | rdword (reg : Byte)
  /-- decode a word the host supplies (42_decoder.md R160) -/
  | decode (rawIn : Half)
  /-- the device initialisation sequence (41_init.md R140) -/
  | init
  /-- acquire one frame (43_acquisition.md R170) -/
  | frame
  /-- acquire frames continuously (43_acquisition.md R174) -/
  | run
  /-- cancel the running command (43_acquisition.md R177) -/
  | stop
deriving DecidableEq, Repr, Inhabited

end Sys2Proof
end

