-- ==== Sys2Proof/WellFormed.lean ====
section
/-! DEFINITION. The assembler's source lines and which of them are well-formed (spec 30_encoding.md R108, R109). A term
of `Instr` carries its operand widths in its types (R106), so an operand can be out of range only in a source line,
where "Writing an operand out of range is an assembly error, not an encoding". -/

namespace Sys2Proof

/-- A command as written in assembler source: the eight mnemonics of R108 and the pseudo-instructions of R109. -/
inductive AsmCmd where
  | nop
  | wrbyte (reg data : Nat)
  | rdword (reg : Nat)
  | decode (raw : Nat)
  | init
  | frame
  | run
  | stop
  | setnormal
  | clrflags
  | devreset
  | rdpix (i : Nat)
deriving DecidableEq, Repr

/-- A line of a host program as written in source (R108); offsets are byte offsets of the register window. -/
inductive AsmLine where
  | write (off value : Nat)
  | writeCmd (cmd : AsmCmd)
  | read (off : Nat)
  | poll (off mask value : Nat)
  | tick (t : Rat)
deriving DecidableEq, Repr

/-- The operand ranges of R108 and R109. -/
def AsmCmd.wellFormed : AsmCmd → Bool
  | .nop           => true
  | .wrbyte r d    => decide (r ≤ 0xFF) && decide (d ≤ 0xFF)
  | .rdword r      => decide (r ≤ 0xFF)
  | .decode v      => decide (v ≤ 0xFFFF)
  | .init          => true
  | .frame         => true
  | .run           => true
  | .stop          => true
  | .setnormal     => true
  | .clrflags      => true
  | .devreset      => true
  | .rdpix i       => decide (i ≤ 63)

/-- Offsets lie in the window of 10_state.md R26, values in a 32-bit word (R9), and a TICK lets some time pass
(60_exceptions.md R240). -/
def AsmLine.wellFormed : AsmLine → Bool
  | .write off v   => decide (off < 0x400) && decide (v < 2 ^ 32)
  | .writeCmd c    => c.wellFormed
  | .read off      => decide (off < 0x400)
  | .poll off m v  => decide (off < 0x400) && decide (m < 2 ^ 32) && decide (v < 2 ^ 32)
  | .tick t        => decide (0 < t)

end Sys2Proof
end

