-- ==== Sys2Proof/Decode.lean ====
section
/-! DEFINITION. Decoding of CMD words and, after it, the encoder (spec 30_encoding.md R100-R107). -/

namespace Sys2Proof

/-- Why a word is no command: R103 and R104. -/
inductive DecodeError where
  /-- OP is 0x8 to 0xF (R103) -/
  | illegalOp
  /-- a must-be-zero bit is set (R104) -/
  | reserved
deriving DecidableEq, Repr

/-- OP = w[3:0] (R100). -/
def opField (w : Word) : BitVec 4 := w.extractLsb' 0 4

/-- RSV = w[7:4] (R100). -/
def rsvField (w : Word) : BitVec 4 := w.extractLsb' 4 4

/-- REG = w[15:8] (R100, R106). -/
def regField (w : Word) : Byte := w.extractLsb' 8 8

/-- The data byte of WRBYTE, w[23:16] (R106). -/
def dataField (w : Word) : Byte := w.extractLsb' 16 8

/-- IMM16 = w[31:16] (R100, R106). -/
def immField (w : Word) : Half := w.extractLsb' 16 16

/-- The column MASK of R102, by OP. -/
def cmdMask : Nat → Word
  | 1 => 0xFF0000FF
  | 2 => 0xFFFF00FF
  | 3 => 0x0000FFFF
  | _ => 0xFFFFFFFF

/-- The column MATCH of R102, by OP. -/
def cmdMatch : Nat → Word
  | 0 => 0x00000000
  | 1 => 0x00000001
  | 2 => 0x00000002
  | 3 => 0x00000003
  | 4 => 0x00000004
  | 5 => 0x00000005
  | 6 => 0x00000006
  | _ => 0x00000007

/-- The command of a legal OP with its operands assembled (R101, R106). -/
def assembleOperands (op : Nat) (w : Word) : Instr :=
  match op with
  | 0 => .nop
  | 1 => .wrbyte (regField w) (dataField w)
  | 2 => .rdword (regField w)
  | 3 => .decode (immField w)
  | 4 => .init
  | 5 => .frame
  | 6 => .run
  | _ => .stop

/-- The decoder: "A decoder selects the row by OP = w[3:0] alone. The MASK/MATCH test then decides legality" (R102), in
the order of R105. -/
def decodeWord (w : Word) : Except DecodeError Instr :=
  let op := (opField w).toNat
  if 8 ≤ op then .error .illegalOp
  else if w &&& cmdMask op = cmdMatch op then .ok (assembleOperands op w)
  else .error .reserved

/-- The decoder on a word numbered as spec/opcode_table.json numbers it. Every command is exactly one 32-bit word
(R107), so a longer row has no decoding. -/
def decodeTableWord (nbits w : Nat) : Option Instr :=
  if nbits ≤ 32 then
    match decodeWord (BitVec.ofNat 32 (w % 2 ^ nbits)) with
    | .ok i    => some i
    | .error _ => none
  else none

/-- The OP value of a command (R101). -/
def Instr.op : Instr → BitVec 4
  | .nop        => 0x0
  | .wrbyte _ _ => 0x1
  | .rdword _   => 0x2
  | .decode _   => 0x3
  | .init       => 0x4
  | .frame      => 0x5
  | .run        => 0x6
  | .stop       => 0x7

/-- The REG field of a command (R100). -/
def Instr.regBits : Instr → Byte
  | .nop        => 0
  | .wrbyte r _ => r
  | .rdword r   => r
  | .decode _   => 0
  | .init       => 0
  | .frame      => 0
  | .run        => 0
  | .stop       => 0

/-- The IMM16 field of a command (R100): the data byte of WRBYTE in IMM16[7:0], the raw word of DECODE. -/
def Instr.immBits : Instr → Half
  | .nop        => 0
  | .wrbyte _ d => d.zeroExtend 16
  | .rdword _   => 0
  | .decode v   => v
  | .init       => 0
  | .frame      => 0
  | .run        => 0
  | .stop       => 0

/-- `w = OP | (RSV << 4) | (REG << 8) | (IMM16 << 16)`, with RSV = 0 (R100). -/
def packFields (op : BitVec 4) (reg : Byte) (imm16 : Half) : Word :=
  op.zeroExtend 32 ||| (reg.zeroExtend 32 <<< 8) ||| (imm16.zeroExtend 32 <<< 16)

/-- The encoder (R100). -/
def encode (i : Instr) : Word := packFields i.op i.regBits i.immBits

end Sys2Proof
end

