-- ==== Sys2Proof/Machine/State.lean ====
section
/-! DEFINITION. The state of the block (spec 10_state.md), its ports and its environment as plain data, and the state
after reset (70_reset_and_hazards.md R250). -/

namespace Sys2Proof.Machine

/-- The sequencer's major state (R22); code 7 is never entered and has no name. -/
inductive SeqState where
  | idle
  | init
  | prim
  | frame
  | runFrame
  | runWait
  | halted
deriving DecidableEq, Repr

/-- The name of the next action within a busy state (R23); `none` is the value after reset (R250). -/
inductive SeqStep where
  | none
  | settle1
  | wPctl
  | wSclr
  | wRst
  | settle2
  | xfer
  | read
  | stats
  | wait
deriving DecidableEq, Repr

/-- Command-error causes (60_exceptions.md R226). -/
inductive CmdCause where
  | none
  | illegalOp
  | reserved
  | busy
  | notInit
  | halted
deriving DecidableEq, Repr

/-- `cmd_latch`: the opcode, REG and IMM16 of the running command (R24). -/
structure CmdLatch where
  op    : BitVec 4
  reg   : Byte
  imm16 : Half
deriving DecidableEq, Repr

/-- The fields of CONFIG (R32). -/
structure ConfigReg where
  irqEn   : Bool
  swap    : Bool
  devAddr : BitVec 7
deriving DecidableEq, Repr

/-- The fields of ERRINFO (R35); `errRw` is 0 for a BusWriteByte and 1 for a BusReadWord. -/
structure ErrInfo where
  errReg : Byte
  errRw  : Bool
  errOp  : BitVec 4
deriving DecidableEq, Repr

/-- One entry of the pixel buffer (R45). `band` stays three bits, since after reset it may be any three-bit value
(93_implementation_defined.md U1). -/
structure Pixel where
  raw  : Half
  band : BitVec 3
deriving DecidableEq, Repr

/-- How a transaction ends (00_scope.md R11): `OK` with what it returns, `FAIL(code)`, or never (20_memory.md R98). -/
inductive BusResult (α : Type) where
  | ok (a : α)
  | fail (c : ErrCode)
  | held
deriving DecidableEq, Repr

/-- A transaction the block put on the wires (20_memory.md R80, R81) with the way it ended. -/
inductive BusRecord where
  | write (addr : BitVec 7) (reg data : Byte) (result : BusResult Unit)
  | read (addr : BitVec 7) (reg : Byte) (result : BusResult (Byte × Byte))
deriving DecidableEq, Repr

/-- The reasons for which the model stops with a fault: none. Every exceptional event of 60_exceptions.md R220 ends in a
next state (log 18). -/
inductive Fault where
deriving DecidableEq, Repr

/-- The reasons for which the model refuses. -/
inductive Refusal where
  /-- raised by an arm of `exec` that gives its command no meaning; no arm of this model does. Safe. -/
  | notModelled (mnemonic : String)
deriving DecidableEq, Repr

structure State where
  /-- the build's parameters (00_scope.md R8); no step writes them (log 8) -/
  cfg          : Config
  /-- `state` (R22) -/
  seqState     : SeqState
  /-- `step` (R23) -/
  seqStep      : SeqStep
  /-- `k`, the next pixel index, 0 to 64 (R23) -/
  k            : Nat
  /-- `cancel_pend` (R24) -/
  cancelPend   : Bool
  /-- `cancel_prev` (R24) -/
  cancelPrev   : Bool
  /-- `wait_until` (R24), in seconds -/
  waitUntil    : Rat
  /-- `cmd_latch` (R24) -/
  latch        : CmdLatch
  /-- CONFIG (R32) -/
  config       : ConfigReg
  /-- STATUS.INIT_DONE (R34) -/
  initDone     : Bool
  /-- STATUS.FRAME_VALID (R34) -/
  frameValid   : Bool
  /-- STATUS.DONE (R34) -/
  done         : Bool
  /-- STATUS.CANCELLED (R34) -/
  cancelled    : Bool
  /-- STATUS.CMD_ERR (R34) -/
  cmdErr       : Bool
  /-- STATUS.FATAL (R34) -/
  fatal        : Bool
  /-- STATUS.ERR_CODE (R34) -/
  errCode      : ErrCode
  /-- STATUS.CMD_CAUSE (R34) -/
  cmdCause     : CmdCause
  /-- ERRINFO (R35) -/
  errInfo      : ErrInfo
  /-- RAW.RAW_WORD (R36) -/
  raw          : Half
  /-- FRAME_CNT (R37) -/
  frameCnt     : Word
  /-- MIN_Q (R38) -/
  minQ         : Word
  /-- MAX_Q (R38) -/
  maxQ         : Word
  /-- SUM_Q (R39) -/
  sumQ         : Word
  /-- AVG_C (R40) -/
  avgC         : Word
  /-- HI_U (R41) -/
  hiU          : Word
  /-- LOW_U (R42) -/
  lowU         : Word
  /-- the pixel buffer (R45) -/
  pix          : Vector Pixel 64
  /-- the level of `rst_n` (R25, log 12) -/
  rstN         : Bool
  /-- the time `now` (60_exceptions.md R240), in seconds -/
  now          : Rat
  /-- the transaction of the sequencer's next step is in progress on the wires (43_acquisition.md R181, log 25) -/
  onBus        : Bool
  /-- a transaction is on the wires and never ends (20_memory.md R98, log 5) -/
  hung         : Bool
  /-- the word `h_rdata` showed at the last host read (R25, R123, log 10) -/
  hRdata       : Word
  /-- the transactions issued so far, oldest first (log 11) -/
  trace        : List BusRecord
  /-- the agent steps to come, next first (20_memory.md R91, log 1) -/
  schedule     : List Event
  /-- the host's lines to come, next first (30_encoding.md R108, log 3) -/
  program      : List HostLine
  /-- the oracle's answers to the next writes, next first (20_memory.md R75, log 4) -/
  writeReplies : List WriteReply
  /-- the oracle's answers to the next reads, next first (20_memory.md R75, log 4) -/
  readReplies  : List ReadReply
  /-- how many free values have been drawn (log 24) -/
  draws        : Nat
deriving DecidableEq, Repr

/-- The pixel buffer after a reset is unspecified, "any value, a draw under no law" (R250): draw `n` (log 9). -/
def freePixels (n : Nat) : Vector Pixel 64 :=
  Vector.ofFn fun i => ⟨Config.freeRaw n i.val, Config.freeBand n i.val⟩

/-- The reset table of 70_reset_and_hazards.md R250 for a build with parameters `c`, with draw `n` for the pixel
buffer. The environment's lists are empty and `rst_n` is released (log 1, 3, 4, 10, 11, 12). -/
def State.resetOf (c : Config) (n : Nat) : State where
  cfg          := c
  seqState     := .idle
  seqStep      := .none
  k            := 0
  cancelPend   := false
  cancelPrev   := false
  waitUntil    := 0
  latch        := ⟨0, 0, 0⟩
  config       := ⟨false, c.swapDefault, c.devAddrDefault⟩
  initDone     := false
  frameValid   := false
  done         := false
  cancelled    := false
  cmdErr       := false
  fatal        := false
  errCode      := .none
  cmdCause     := .none
  errInfo      := ⟨0, false, 0⟩
  raw          := 0
  frameCnt     := 0
  minQ         := 0
  maxQ         := 0
  sumQ         := 0
  avgC         := 0
  hiU          := 0
  lowU         := 0
  pix          := freePixels n
  rstN         := true
  now          := 0
  onBus        := false
  hung         := false
  hRdata       := 0
  trace        := []
  schedule     := []
  program      := []
  writeReplies := []
  readReplies  := []
  draws        := n + 1

/-- The block right after reset, built with the default parameters of 00_scope.md R8. -/
def State.reset : State := State.resetOf Config.defaults 0

end Sys2Proof.Machine
end

