-- ==== Sys2Proof/Machine/Operands.lean ====
section
/-! DEFINITION. Operand forms and byte order (spec 20_memory.md R83-R87, 30_encoding.md R106, 00_scope.md R11). -/

namespace Sys2Proof.Machine

/-- `enc32(x)`: the 32-bit two's-complement pattern of an integer (00_scope.md R11). -/
def enc32 (x : Int) : Word := BitVec.ofInt 32 x

/-- `sext_12(v)` (00_scope.md R11). -/
def sext12 (v : BitVec 12) : Int := v.toInt

/-- `swap16(v) = {v[7:0], v[15:8]}` (20_memory.md R85). -/
def swap16 (v : Half) : Half := v.extractLsb' 0 8 ++ v.extractLsb' 8 8

/-- The word as it stands on the bus, low byte first: `{b1, b0}` (20_memory.md R83). -/
def busWord (b0 b1 : Byte) : Half := b1 ++ b0

/-- Byte-order normalisation (20_memory.md R84). -/
def norm (swap : Bool) (b0 b1 : Byte) : Half :=
  if swap then b0 ++ b1 else b1 ++ b0

/-- The device register of pixel `k`: `0x80 + 2·k` (20_memory.md R71, 43_acquisition.md R171). -/
def pixelReg (k : Nat) : Byte := BitVec.ofNat 8 (0x80 + 2 * k)

/-- The grid column of pixel `i`, from 1 (10_state.md R45). -/
def pixelColumn (i : Fin 64) : Nat := i.val % 8 + 1

/-- The grid row of pixel `i`, from 1 (10_state.md R45). -/
def pixelRow (i : Fin 64) : Nat := i.val / 8 + 1

/-- The fields of a command as `cmd_latch` takes them (30_encoding.md R105, R106). -/
def latchOf (i : Instr) : CmdLatch := ⟨i.op, i.regBits, i.immBits⟩

/-- The data byte of a latched WRBYTE: IMM16[7:0] (30_encoding.md R100, R106). -/
def CmdLatch.data (l : CmdLatch) : Byte := l.imm16.extractLsb' 0 8

/-- `h_addr` of a byte offset: its bits 9 to 2 (10_state.md R25). -/
def wordOffset (byteOffset : Nat) : BitVec 8 := BitVec.ofNat 8 (byteOffset / 4)

end Sys2Proof.Machine
end

