-- ==== Sys2Proof/Machine/Bus.lean ====
section
/-! DEFINITION. The two bus transactions (spec 20_memory.md R75-R82, R98) and what they look like on the wires (R77). -/

namespace Sys2Proof.Machine

/-- How a write ends for an answer of the oracle (R82). A target that holds SCL makes a finite BUS_TIMEOUT end the
transaction with TIMEOUT; with an infinite one it never ends (R98, log 5). -/
def writeResult (busTimeout : Option Rat) : WriteReply → BusResult Unit
  | .ack      => .ok ()
  | .addrNack => .fail .addrNack
  | .regNack  => .fail .regNack
  | .dataNack => .fail .dataNack
  | .arbLost  => .fail .arbLost
  | .sclHeld  => if busTimeout.isSome then .fail .timeout else .held

/-- How a read ends for an answer of the oracle (R82, R98, log 5). -/
def readResult (busTimeout : Option Rat) : ReadReply → BusResult (Byte × Byte)
  | .ack b0 b1 => .ok (b0, b1)
  | .addrNack  => .fail .addrNack
  | .regNack   => .fail .regNack
  | .raddrNack => .fail .raddrNack
  | .arbLost   => .fail .arbLost
  | .sclHeld   => if busTimeout.isSome then .fail .timeout else .held

/-- The oracle's answer to the next write: the next listed one, or a free value (R75, log 4). -/
def takeWriteReply (s : State) : WriteReply × State :=
  match s.writeReplies with
  | r :: rs => (r, { s with writeReplies := rs })
  | []      => (Config.freeWriteReply s.draws, { s with draws := s.draws + 1 })

/-- The oracle's answer to the next read: the next listed one, or a free value (R75, log 4). -/
def takeReadReply (s : State) : ReadReply × State :=
  match s.readReplies with
  | r :: rs => (r, { s with readReplies := rs })
  | []      => (Config.freeReadReply s.draws, { s with draws := s.draws + 1 })

/-- `BusWriteByte(CONFIG.DEV_ADDR, reg, data)` (R80): one atomic step that asks the oracle. It ends the transaction, if that
was in progress already. -/
def busWriteByte (reg data : Byte) (s : State) : BusResult Unit × State :=
  let (reply, t) := takeWriteReply s
  let res := writeResult s.cfg.busTimeout reply
  (res, { t with trace := t.trace ++ [.write s.config.devAddr reg data res], onBus := false })

/-- `BusReadWord(CONFIG.DEV_ADDR, reg)` (R81): one atomic step that asks the oracle. It ends the transaction, if that was in
progress already. -/
def busReadWord (reg : Byte) (s : State) : BusResult (Byte × Byte) × State :=
  let (reply, t) := takeReadReply s
  let res := readResult s.cfg.busTimeout reply
  (res, { t with trace := t.trace ++ [.read s.config.devAddr reg res], onBus := false })

/-! ### The wires -/

/-- The port `scl_oe` between two steps (10_state.md R25). "Between transactions the bus is idle, with both wires released"
(R76). In a transaction that never ends the master has released SCL and senses it low (R98); in one in progress the port is
at some level of its sequence, a free value at each time (log 26). -/
def State.sclOe (s : State) : Bool := !s.hung && s.onBus && (Config.freePulls s.trace.length s.now).1

/-- The port `sda_oe` between two steps (10_state.md R25, R76). In a transaction that never ends (R98) it is the level of
the bit in hand, which the spec does not give, and in one in progress some level of its sequence: free values (log 26). -/
def State.sdaOe (s : State) : Bool :=
  if s.hung then Config.freeSdaOe s.trace.length else s.onBus && (Config.freePulls s.trace.length s.now).2

/-- Who drives SDA in a bit: the block, or the target at the other end. -/
inductive Side where
  | block
  | target
deriving DecidableEq, Repr

/-- What the wires carry: START, repeated START, STOP, a byte from one side, and the acknowledge bit after it (R77); and, in
a transaction that ARB_LOST or TIMEOUT ends, the symbol it ends in, with the phase, and the STOP attempted then (R82). -/
inductive WireSym where
  | start
  | restart
  | stop
  | byte (sender : Side) (b : Byte)
  | ack (sender : Side)
  | nack
  /-- `w`, until the block has released SDA in its phase `p` and senses it low -/
  | sdaLost (w : WireSym) (p : Nat)
  /-- `w`, until the block has released SCL in its phase `p` and SCL stays low -/
  | sclStuck (w : WireSym) (p : Nat)
  /-- the block releases both wires and attempts a STOP; `other` is what the other end pulls meanwhile (log 27) -/
  | stopAttempt (other : Vector (Bool × Bool) 4)
deriving DecidableEq, Repr

/-- The address byte `{DEV_ADDR[6:0], RW}` (R77). -/
def addressByte (addr : BitVec 7) (rw : Bool) : Byte := addr ++ BitVec.ofBool rw

/-- A byte the block sends and the target acknowledges. -/
def sentByte (b : Byte) : List WireSym := [.byte .block b, .ack .target]

/-- The wire sequence of BusWriteByte (R80). -/
def writeSyms (a : BitVec 7) (r d : Byte) : List WireSym :=
  .start :: sentByte (addressByte a false) ++ sentByte r ++ sentByte d ++ [.stop]

/-- The wire sequence of BusReadWord (R81). -/
def readSyms (a : BitVec 7) (r b0 b1 : Byte) : List WireSym :=
  .start :: sentByte (addressByte a false) ++ sentByte r ++ .restart :: sentByte (addressByte a true) ++
    [.byte .target b0, .ack .block, .byte .target b1, .nack, .stop]

/-- "Each byte is sent most significant bit first" (R77). -/
def byteBits (b : Byte) : List Bool :=
  [b.getLsbD 7, b.getLsbD 6, b.getLsbD 5, b.getLsbD 4, b.getLsbD 3, b.getLsbD 2, b.getLsbD 1, b.getLsbD 0]

/-- The bits `x` puts on SDA through a symbol's SCL high phases, 1 where it leaves the line alone: the sender of a byte
sends its bits, and the receiver "drives SDA low for ACK and leaves it high for NACK" (R77). -/
def WireSym.bits (x : Side) : WireSym → List Bool
  | .start         => []
  | .restart       => []
  | .stop          => []
  | .byte y b      => if x = y then byteBits b else List.replicate 8 true
  | .ack y         => [!decide (x = y)]
  | .nack          => [true]
  | .sdaLost _ _   => []
  | .sclStuck _ _  => []
  | .stopAttempt _ => []

/-- `(scl_oe, sda_oe)` of the block through a bit it sends as `v`: SDA is set while SCL is low and holds through the high
phase (log 17). -/
def blockBit (v : Bool) : List (Bool × Bool) := [(true, !v), (false, !v), (true, !v)]

/-- The pull-downs of the target through a bit it sends as `v`: it stretches no clock (log 17). -/
def targetBit (v : Bool) : List (Bool × Bool) := List.replicate 3 (false, !v)

/-- `(scl_oe, sda_oe)` of the block through a symbol (10_state.md R25, R77), 1 where it pulls the wire low. "After a failure the
master releases both wires and attempts a STOP" (R82). -/
def WireSym.blockPulls : WireSym → List (Bool × Bool)
  | .start         => [(false, false), (false, true)]
  | .restart       => [(true, false), (false, false), (false, true)]
  | .stop          => [(true, true), (false, true), (false, false)]
  | .byte y b      => ((WireSym.byte y b).bits .block).flatMap blockBit
  | .ack y         => ((WireSym.ack y).bits .block).flatMap blockBit
  | .nack          => blockBit true
  | .sdaLost w p   => w.blockPulls.take (p + 1)
  | .sclStuck w p  => w.blockPulls.take (p + 1)
  | .stopAttempt _ => [(false, false), (true, true), (false, true), (false, false)]

/-- The pull-downs of the other end through a symbol: SDA in the bits the target sends, and no clock stretched (R77,
log 17), but SDA where the block loses it and SCL where it stays low (R82). -/
def WireSym.targetPulls : WireSym → List (Bool × Bool)
  | .start         => List.replicate 2 (false, false)
  | .restart       => List.replicate 3 (false, false)
  | .stop          => List.replicate 3 (false, false)
  | .byte y b      => ((WireSym.byte y b).bits .target).flatMap targetBit
  | .ack y         => ((WireSym.ack y).bits .target).flatMap targetBit
  | .nack          => targetBit true
  | .sdaLost w p   => w.targetPulls.take p ++ [(false, true)]
  | .sclStuck w p  => w.targetPulls.take p ++ (w.targetPulls.drop p).head?.toList.map fun q => (true, q.2)
  | .stopAttempt o => o.toList

/-- The levels of `(SCL, SDA)` through a symbol, the inputs `scl_i` and `sda_i` (10_state.md R25): an open-drain wire is
low where either end pulls it. -/
def WireSym.levels (w : WireSym) : List (Bool × Bool) :=
  List.zipWith (fun m t => (!(m.1 || t.1), !(m.2 || t.2))) w.blockPulls w.targetPulls

/-- The target sends SDA through the symbol: the block has released SDA to listen, and a low level is no loss (R77). -/
def WireSym.listens : WireSym → Bool
  | .byte .target _ => true
  | .ack .target    => true
  | _               => false

/-- The phases of a symbol in which the condition holds of the block's `(scl_oe, sda_oe)`. -/
def WireSym.phases (cond : Bool × Bool → Bool) (w : WireSym) : List Nat :=
  (List.range w.blockPulls.length).filter fun p => (w.blockPulls[p]?).any cond

/-- The phases in which ARB_LOST can come: "the master released SDA high but sensed it low" (R82), with SCL released. -/
def WireSym.losses (w : WireSym) : List Nat := if w.listens then [] else w.phases (· = (false, false))

/-- The phases in which TIMEOUT can come: SCL is released (R82, R98). -/
def WireSym.stalls (w : WireSym) : List Nat := w.phases (!·.1)

/-- Every way to cut a sequence in one of the phases `points` gives. -/
def cuts (mark : WireSym → Nat → WireSym) (points : WireSym → List Nat) : List WireSym → List (List WireSym)
  | []      => []
  | w :: ws => (points w).map (fun p => [mark w p]) ++ (cuts mark points ws).map (w :: ·)

/-- The sequence of the transaction that is entry `n` of the history and was cut: one of the ways, and the STOP attempted
after it. Which way, and whether the other end lets the STOP happen, are free values (R82, log 27). -/
def cutSyms (n : Nat) (ways : List (List WireSym)) : List WireSym :=
  (ways[Config.freeCut n % ways.length]?).getD [] ++ [.stopAttempt (Config.freeOtherPulls n)]

/-- The wire sequence of the transaction that is entry `n` of the history (R80, R81), up to the STOP the master attempts after
a failure (R82). `none` for a transaction that never ends (R98), and for a failure the kind does not have (R82). -/
def wire (n : Nat) : BusRecord → Option (List WireSym)
  | .write a r d (.ok _) => some (writeSyms a r d)
  | .write a _ _ (.fail .addrNack) => some [.start, .byte .block (addressByte a false), .nack, .stop]
  | .write a r _ (.fail .regNack) =>
      some (.start :: sentByte (addressByte a false) ++ [.byte .block r, .nack, .stop])
  | .write a r d (.fail .dataNack) =>
      some (.start :: sentByte (addressByte a false) ++ sentByte r ++ [.byte .block d, .nack, .stop])
  | .write a r d (.fail .arbLost) => some (cutSyms n (cuts .sdaLost WireSym.losses (writeSyms a r d)))
  | .write a r d (.fail .timeout) => some (cutSyms n (cuts .sclStuck WireSym.stalls (writeSyms a r d)))
  | .write _ _ _ _ => none
  | .read a r (.ok (b0, b1)) => some (readSyms a r b0 b1)
  | .read a _ (.fail .addrNack) => some [.start, .byte .block (addressByte a false), .nack, .stop]
  | .read a r (.fail .regNack) =>
      some (.start :: sentByte (addressByte a false) ++ [.byte .block r, .nack, .stop])
  | .read a r (.fail .raddrNack) =>
      some (.start :: sentByte (addressByte a false) ++ sentByte r ++
        [.restart, .byte .block (addressByte a true), .nack, .stop])
  | .read a r (.fail .arbLost) =>
      some (cutSyms n
        (cuts .sdaLost WireSym.losses (readSyms a r (Config.freeCutBytes n).1 (Config.freeCutBytes n).2)))
  | .read a r (.fail .timeout) =>
      some (cutSyms n
        (cuts .sclStuck WireSym.stalls (readSyms a r (Config.freeCutBytes n).1 (Config.freeCutBytes n).2)))
  | .read _ _ _ => none

/-- The wire sequences of the transactions issued so far, in order (R77). -/
def State.wires (s : State) : List (Option (List WireSym)) := (s.trace.zipIdx 1).map fun e => wire e.2 e.1

/-- `(scl_oe, sda_oe)` through the transaction that is entry `n` of the history, where `wire` gives its sequence. -/
def BusRecord.blockPulls (n : Nat) (r : BusRecord) : Option (List (Bool × Bool)) :=
  (wire n r).map fun ws => ws.flatMap WireSym.blockPulls

end Sys2Proof.Machine
end

