-- ==== Sys2Proof/Machine/Flags.lean ====
section
/-! DEFINITION. The flags: codes of the named values, the STATUS, CONFIG and ERRINFO words, the W1C clears and the
interrupt output (spec 10_state.md R22, R32-R35, 60_exceptions.md R221, R226, R232). -/

namespace Sys2Proof.Machine

/-- The codes of `state` (R22). -/
def SeqState.code : SeqState → BitVec 3
  | .idle     => 0
  | .init     => 1
  | .prim     => 2
  | .frame    => 3
  | .runFrame => 4
  | .runWait  => 5
  | .halted   => 6

/-- The column "busy" of R22. -/
def SeqState.busy : SeqState → Bool
  | .idle     => false
  | .init     => true
  | .prim     => true
  | .frame    => true
  | .runFrame => true
  | .runWait  => true
  | .halted   => false

/-- `busy` (R22). -/
def State.busy (s : State) : Bool := s.seqState.busy

/-- STATUS.ERR_CODE (60_exceptions.md R221). -/
def ErrCode.code : ErrCode → BitVec 4
  | .none      => 0
  | .addrNack  => 1
  | .regNack   => 2
  | .dataNack  => 3
  | .raddrNack => 4
  | .arbLost   => 5
  | .timeout   => 6

/-- STATUS.CMD_CAUSE (60_exceptions.md R226). -/
def CmdCause.code : CmdCause → BitVec 4
  | .none      => 0
  | .illegalOp => 1
  | .reserved  => 2
  | .busy      => 3
  | .notInit   => 4
  | .halted    => 5

/-- The cause a rejected word raises (30_encoding.md R103, R104). -/
def causeOf : DecodeError → CmdCause
  | .illegalOp => .illegalOp
  | .reserved  => .reserved

/-- The word STATUS reads as (R34), from bit 31 down to bit 0. -/
def statusWord (s : State) : Word :=
  0#12 ++ s.cmdCause.code ++ s.errCode.code ++ 0#2 ++ BitVec.ofBool s.fatal ++ BitVec.ofBool s.cmdErr
    ++ BitVec.ofBool s.cancelled ++ BitVec.ofBool s.done ++ BitVec.ofBool s.frameValid
    ++ BitVec.ofBool s.initDone ++ BitVec.ofBool s.busy ++ s.seqState.code

/-- The word CONFIG reads as (R32), from bit 31 down to bit 0. -/
def configWord (c : ConfigReg) : Word :=
  0#17 ++ c.devAddr ++ 0#6 ++ BitVec.ofBool c.swap ++ BitVec.ofBool c.irqEn

/-- The fields a write of `w` gives CONFIG (R32, 40_bus_primitives.md R124). -/
def configOf (w : Word) : ConfigReg := ⟨w.getLsbD 0, w.getLsbD 1, w.extractLsb' 8 7⟩

/-- The word ERRINFO reads as (R35), from bit 31 down to bit 0. -/
def errInfoWord (e : ErrInfo) : Word :=
  0#16 ++ e.errOp ++ 0#3 ++ BitVec.ofBool e.errRw ++ e.errReg

/-- A host write of `w` to STATUS: the W1C clears and nothing else (R34). -/
def writeStatus (w : Word) (s : State) : State :=
  { s with
    done      := s.done && !w.getLsbD 6
    cancelled := s.cancelled && !w.getLsbD 7
    cmdErr    := s.cmdErr && !w.getLsbD 8
    cmdCause  := if w.getLsbD 8 then .none else s.cmdCause }

/-- The interrupt output, a level (60_exceptions.md R232). -/
def irqO (s : State) : Bool :=
  s.config.irqEn && (s.done || s.cancelled || s.cmdErr || s.fatal)

end Sys2Proof.Machine
end

