-- ==== Sys2Proof/Machine/Arithmetic.lean ====
section
/-! DEFINITION. The decoder's arithmetic: raw word to quarter-degrees to binary32 (spec 42_decoder.md R150-R158). -/

namespace Sys2Proof.Machine

/-- `decode(v)` (R150): the sign test uses the 11-bit mask 0x7FF, and no bit is masked off (R151, R153). -/
def decodeRaw (v : Half) : Int :=
  if v &&& 0x7FF = v then (v.toNat : Int) else (v.toNat : Int) - 4096

/-- `f32(q)` (R156): the binary32 pattern of `q/4`. Total on the integers; the spec gives it for -2048 to 61439 (log 15). -/
def f32 (q : Int) : Word :=
  if q = 0 then 0
  else
    let s    := if q < 0 then 1 else 0
    let m    := q.natAbs
    let e    := m.log2
    let expf := e + 127 - 2
    let frac := (m - 2 ^ e) <<< (23 - e)
    BitVec.ofNat 32 ((s <<< 31) ||| (expf <<< 23) ||| frac)

end Sys2Proof.Machine
end

