-- ==== Sys2Proof/Machine/Statistics.lean ====
section
/-! DEFINITION. Frame statistics and banding, in exact integers (spec 44_statistics.md R190-R203). -/

namespace Sys2Proof.Machine

/-- The least of the values (R190); 0 for no value, which no frame has. -/
def minOf : List Int → Int
  | []      => 0
  | q :: qs => qs.foldl min q

/-- The greatest of the values (R190); 0 for no value, which no frame has. -/
def maxOf : List Int → Int
  | []      => 0
  | q :: qs => qs.foldl max q

/-- `roundHalfEven(n, d)` for d > 0 (R192). -/
def roundHalfEven (n d : Int) : Int :=
  let t := n / d
  let r := n - t * d
  if 2 * r > d then t + 1
  else if 2 * r < d then t
  else t + t % 2

/-- `A` of a frame's sum, in hundredths of a degree (R192). -/
def averageC (sum : Int) : Int := roundHalfEven (25 * sum) 64

/-- The six results of `Stats` (43_acquisition.md R172). -/
structure FrameStats where
  minQ : Int
  maxQ : Int
  sum  : Int
  avgC : Int
  hiU  : Int
  lowU : Int
deriving DecidableEq, Repr

/-- `Stats(q_0 .. q_63)` (R190-R195): the thresholds use the rounded average and the unrounded extrema (R196). -/
def frameStats (qs : List Int) : FrameStats :=
  let a := averageC qs.sum
  { minQ := minOf qs
    maxQ := maxOf qs
    sum  := qs.sum
    avgC := a
    hiU  := a + 25 * maxOf qs
    lowU := 3 * a - 25 * minOf qs }

/-- The five tiers (R197). -/
inductive Band where
  | coldest
  | cool
  | neutral
  | warm
  | hottest
deriving DecidableEq, Repr

/-- The band codes (R200). -/
def Band.code : Band → BitVec 3
  | .coldest => 0
  | .cool    => 1
  | .neutral => 2
  | .warm    => 3
  | .hottest => 4

/-- `Band(q, min_q, max_q, HI_U, LOW_U)`; "The first clause that matches wins" (R197). -/
def bandOf (st : FrameStats) (q : Int) : Band :=
  if q = st.maxQ then .hottest
  else if 50 * q ≥ st.hiU then .warm
  else if q = st.minQ then .coldest
  else if 50 * q ≤ st.lowU then .cool
  else .neutral

/-- The 64 decoded values of a pixel buffer, in pixel order (43_acquisition.md R172). -/
def decodedPixels (pix : Vector Pixel 64) : List Int := pix.toList.map fun p => decodeRaw p.raw

/-- The pixel buffer with every band set for the statistics `st` (43_acquisition.md R172). -/
def bandPixels (st : FrameStats) (pix : Vector Pixel 64) : Vector Pixel 64 :=
  Vector.ofFn fun i => { pix[i] with band := (bandOf st (decodeRaw pix[i].raw)).code }

end Sys2Proof.Machine
end

