-- ==== Sys2Proof/Machine/Ops.lean ====
section
/-! DEFINITION. The shared operations: reading and writing registers, taking an exceptional event (spec 60_exceptions.md
R222, R227, 43_acquisition.md R178) and leaving it by reset (R250), a transaction with its failure, and the acceptance of
a command (30_encoding.md R105). -/

namespace Sys2Proof.Machine

/-! ### Registers as the host reads them -/

/-- Entry `i` of the pixel buffer (10_state.md R45). -/
def State.pixel (s : State) (i : Fin 64) : Pixel := s.pix[i]

/-- PIX[i] (10_state.md R46). -/
def pixWord (p : Pixel) : Word := 0#13 ++ p.band ++ p.raw

/-- The registers at word offsets 0x00 to 0x3F, byte offsets 0x000 to 0x0FC (10_state.md R26): a reserved offset and CMD
read 0 (R27, R33), and the views are functions of stored fields (R30). -/
def readLow (s : State) : Nat → Word
  | 0  => 0x414D4738
  | 1  => configWord s.config
  | 3  => statusWord s
  | 4  => errInfoWord s.errInfo
  | 5  => s.raw.zeroExtend 32
  | 6  => enc32 (decodeRaw s.raw)
  | 7  => f32 (decodeRaw s.raw)
  | 8  => s.frameCnt
  | 9  => s.minQ
  | 10 => s.maxQ
  | 11 => s.sumQ
  | 12 => s.avgC
  | 13 => s.hiU
  | 14 => s.lowU
  | 15 => f32 s.minQ.toInt
  | 16 => f32 s.maxQ.toInt
  | _  => 0

/-- The word the host reads at word offset `addr` (40_bus_primitives.md R123, 10_state.md R26, R46, R47). -/
def readReg (s : State) (addr : BitVec 8) : Word :=
  let i : Fin 64 := ⟨addr.toNat % 64, Nat.mod_lt _ (by decide)⟩
  match addr.toNat / 64 with
  | 0 => readLow s addr.toNat
  | 1 => pixWord (s.pixel i)
  | 2 => enc32 (decodeRaw (s.pixel i).raw)
  | _ => f32 (decodeRaw (s.pixel i).raw)

/-! ### Exceptional events -/

/-- `raise CmdErr(cause)`: the first cause is kept (60_exceptions.md R227). -/
def raiseCmdErr (cause : CmdCause) (s : State) : State :=
  { s with
    cmdErr   := true
    cmdCause := if s.cmdErr then s.cmdCause else cause }

/-- `raise Fatal(c, reg, rw)` (60_exceptions.md R222). -/
def raiseFatal (c : ErrCode) (reg : Byte) (rw : Bool) (s : State) : State :=
  { s with
    fatal      := true
    errCode    := c
    errInfo    := ⟨reg, rw, s.latch.op⟩
    seqState   := .halted
    seqStep    := .none
    cancelPend := false }

/-- The cancel step (43_acquisition.md R178). -/
def cancelStep (s : State) : State :=
  { s with
    seqState   := .idle
    seqStep    := .none
    k          := 0
    cancelPend := false
    cancelled  := true }

/-- Reset applied: every piece of the block's state takes its reset value and the pixel buffer a fresh draw
(70_reset_and_hazards.md R250, log 9). It is the only way out of HALTED (60_exceptions.md R223). The wires' history, the
host's and the oracle's lists are not the block's and stay (log 11). -/
def applyReset (s : State) : State :=
  { State.resetOf s.cfg s.draws with
    rstN         := false
    hRdata       := s.hRdata
    trace        := s.trace
    schedule     := s.schedule
    program      := s.program
    writeReplies := s.writeReplies
    readReplies  := s.readReplies }

/-! ### Transactions -/

/-- A BusWriteByte as a sequencer step: `onOk` if it is acknowledged, the fatal error of R222 if it fails, and a
transaction that never ends if SCL is held for ever (R98, log 5). -/
def writeTransaction (reg data : Byte) (onOk : State → State) (s : State) : State :=
  match busWriteByte reg data s with
  | (.ok _, t)   => onOk t
  | (.fail c, t) => raiseFatal c reg false t
  | (.held, t)   => { t with hung := true }

/-- A BusReadWord as a sequencer step; `onOk` gets the two bytes in wire order. -/
def readTransaction (reg : Byte) (onOk : Byte → Byte → State → State) (s : State) : State :=
  match busReadWord reg s with
  | (.ok (b0, b1), t) => onOk b0 b1 t
  | (.fail c, t)      => raiseFatal c reg true t
  | (.held, t)        => { t with hung := true }

/-! ### Command acceptance -/

/-- `cmd_latch <- (op, reg, data, raw_in)` (30_encoding.md R105). -/
def latchCommand (i : Instr) (s : State) : State := { s with latch := latchOf i }

/-- The checks of 30_encoding.md R105 that follow the decoding of a command other than NOP and STOP, in their order, and
the start of the command if all pass. `needsInit` says that the command needs STATUS.INIT_DONE (41_init.md R144). -/
def acceptCommand (i : Instr) (needsInit : Bool) (start : State → State) (s : State) : State :=
  if s.seqState = .halted then raiseCmdErr .halted s
  else if s.busy then raiseCmdErr .busy s
  else if needsInit && !s.initDone then raiseCmdErr .notInit s
  else start (latchCommand i s)

end Sys2Proof.Machine
end

