-- ==== Sys2Proof/Machine/Initialisation.lean ====
section
/-! DEFINITION. INIT (spec 41_init.md R140-R147). -/

namespace Sys2Proof.Machine

/-- The start clause of R140: `state <- INIT; step <- SETTLE1; STATUS.INIT_DONE <- 0; wait_until <- now + SETTLE_TIME`. -/
def startInit (s : State) : State :=
  { s with
    seqState  := .init
    seqStep   := .settle1
    initDone  := false
    waitUntil := s.now + s.cfg.settleTime }

/-- INIT, start (R140). -/
def execInit (s : State) : Host.Outcome State Fault Refusal :=
  .next (acceptCommand .init false startInit s)

/-- The wait of a SETTLE or RUN_WAIT step: the step `next` is enabled when `now >= wait_until` (20_memory.md R88,
60_exceptions.md R240). -/
def afterWait (next : State → State) (s : State) : State :=
  if s.waitUntil ≤ s.now then next s else s

/-- SETTLE2's effect (R140): `STATUS.INIT_DONE <- 1; STATUS.DONE <- 1; state <- IDLE`. -/
def finishInit (s : State) : State := { s with initDone := true, done := true, seqState := .idle }

/-- The five steps of R140, in the order of R141; no other position is one of INIT (10_state.md R23, log 14). -/
def initStep (s : State) : State :=
  match s.seqStep with
  | .settle1 => afterWait (fun t => { t with seqStep := .wPctl }) s
  | .wPctl   => writeTransaction 0x00 0x00 (fun t => { t with seqStep := .wSclr }) s
  | .wSclr   => writeTransaction 0x05 0x0E (fun t => { t with seqStep := .wRst }) s
  | .wRst    =>
      writeTransaction 0x01 0x3F
        (fun t => { t with seqStep := .settle2, waitUntil := t.now + t.cfg.settleTime }) s
  | .settle2 => afterWait finishInit s
  | _        => s

end Sys2Proof.Machine
end

