-- ==== Sys2Proof/Machine/Acquisition.lean ====
section
/-! DEFINITION. FRAME, RUN and STOP (spec 43_acquisition.md R170-R183) with the frame-completion step. -/

namespace Sys2Proof.Machine

/-- The start clause of R170: `state <- FRAME; step <- READ; k <- 0; STATUS.FRAME_VALID <- 0`. -/
def startFrame (s : State) : State :=
  { s with seqState := .frame, seqStep := .read, k := 0, frameValid := false }

/-- FRAME, start: accepted only if STATUS.INIT_DONE = 1 (R170). -/
def execFrame (s : State) : Host.Outcome State Fault Refusal :=
  .next (acceptCommand .frame true startFrame s)

/-- `state <- RUN_FRAME; step <- READ; k <- 0; STATUS.FRAME_VALID <- 0`, the start clause of R174 and the effect of the
RUN_WAIT step of R175. -/
def startRunFrame (s : State) : State :=
  { s with seqState := .runFrame, seqStep := .read, k := 0, frameValid := false }

/-- RUN, start: accepted only if STATUS.INIT_DONE = 1 (R174). -/
def execRun (s : State) : Host.Outcome State Fault Refusal :=
  .next (acceptCommand .run true startRunFrame s)

/-- STOP: "if busy, `cancel_pend <- 1`. If IDLE, nothing happens. In HALTED it raises `CmdErr(HALTED)`" (R177). -/
def execStop (s : State) : Host.Outcome State Fault Refusal :=
  .next (if s.seqState = .halted then raiseCmdErr .halted s
    else if s.busy then { s with cancelPend := true }
    else s)

/-- The pixel buffer with `raw` of entry `k` written (R170, R171). -/
def setRaw (k : Nat) (v : Half) (pix : Vector Pixel 64) : Vector Pixel 64 :=
  if h : k < 64 then pix.set k { pix[k] with raw := v } else pix

/-- What a READ does with its two bytes (R170): `pix[k].raw <- norm(b0, b1); k <- k + 1; if k = 64: step <- STATS`. -/
def storePixel (b0 b1 : Byte) (s : State) : State :=
  { s with
    pix     := setRaw s.k (norm s.config.swap b0 b1) s.pix
    k       := s.k + 1
    seqStep := if s.k + 1 = 64 then .stats else .read }

/-- The READ step, for 0 <= k <= 63 (R170). -/
def readPixel (s : State) : State :=
  if s.k < 64 then readTransaction (pixelReg s.k) storePixel s else s

/-- The statistics of the pixel buffer as it stands (R172). -/
def State.stats (s : State) : FrameStats := frameStats (decodedPixels s.pix)

/-- The frame-completion step STATS (R172). -/
def completeFrame (s : State) : State :=
  { s with
    minQ       := enc32 s.stats.minQ
    maxQ       := enc32 s.stats.maxQ
    sumQ       := enc32 s.stats.sum
    avgC       := enc32 s.stats.avgC
    hiU        := enc32 s.stats.hiU
    lowU       := enc32 s.stats.lowU
    pix        := bandPixels s.stats s.pix
    frameCnt   := s.frameCnt + 1
    frameValid := true
    done       := true
    seqState   := if s.seqState = .runFrame then .runWait else .idle
    seqStep    := if s.seqState = .runFrame then .wait else s.seqStep
    waitUntil  := if s.seqState = .runFrame then s.now + s.cfg.frameInterval else s.waitUntil }

/-- The sequencer's step in FRAME and RUN_FRAME (R170, R174); no other position is one of them (10_state.md R23, log 14). -/
def frameStep (s : State) : State :=
  match s.seqStep with
  | .read  => readPixel s
  | .stats => completeFrame s
  | _      => s

/-- The RUN_WAIT step (R175). -/
def runWaitStep (s : State) : State := afterWait startRunFrame s

/-- The environment step that samples `cancel_i` at `level` (R178): a rising edge while busy requests a cancel. While
`rst_n` is 0 `cancel_prev` keeps its reset value (70_reset_and_hazards.md R250, log 12). -/
def sampleCancel (level : Bool) (s : State) : State :=
  if s.rstN then
    { s with
      cancelPrev := level
      cancelPend := s.cancelPend || (level && !s.cancelPrev && s.busy) }
  else s

end Sys2Proof.Machine
end

