-- ==== Sys2Proof/Machine/DecodeCommand.lean ====
section
/-! DEFINITION. DECODE (spec 42_decoder.md R160). -/

namespace Sys2Proof.Machine

/-- `csr[RAW].RAW_WORD <- raw_in; STATUS.DONE <- 1` (R160); no byte-order normalisation, and `state` stays as it is. -/
def startDecode (rawIn : Half) (s : State) : State := { s with raw := rawIn, done := true }

/-- DECODE: "the whole command runs in the CMD-write step" (R160). -/
def execDecode (rawIn : Half) (s : State) : Host.Outcome State Fault Refusal :=
  .next (acceptCommand (.decode rawIn) false (startDecode rawIn) s)

end Sys2Proof.Machine
end

