-- ==== Sys2Proof/Machine/Primitives.lean ====
section
/-! DEFINITION. NOP, WRBYTE and RDWORD (spec 40_bus_primitives.md R120-R122): the effect of the CMD write and the
sequencer step that follows. -/

namespace Sys2Proof.Machine

/-- NOP: "nothing. The command is not latched, no state changes, and STATUS.DONE is not set" (R120). -/
def execNop (s : State) : Host.Outcome State Fault Refusal := .next s

/-- `state <- PRIM; step <- XFER`, the start clause of R121 and R122. -/
def startTransfer (s : State) : State := { s with seqState := .prim, seqStep := .xfer }

/-- WRBYTE, start (R121). -/
def execWrbyte (reg data : Byte) (s : State) : Host.Outcome State Fault Refusal :=
  .next (acceptCommand (.wrbyte reg data) false startTransfer s)

/-- RDWORD, start (R122). -/
def execRdword (reg : Byte) (s : State) : Host.Outcome State Fault Refusal :=
  .next (acceptCommand (.rdword reg) false startTransfer s)

/-- The end of a transfer that succeeded (R121, R122): `state <- IDLE; STATUS.DONE <- 1`. If a cancel was requested while the
transaction was in progress, the result stands and the cancel step follows (43_acquisition.md R181), so the command does not
complete (R183) and DONE is not set (60_exceptions.md R230): the model's reading of the rules together (log 25). -/
def endTransfer (s : State) : State :=
  if s.cancelPend then s else { s with seqState := .idle, done := true }

/-- WRBYTE, its one step (R121). -/
def wrbyteTransfer (s : State) : State :=
  writeTransaction s.latch.reg s.latch.data endTransfer s

/-- RDWORD, its one step (R122). -/
def rdwordTransfer (s : State) : State :=
  readTransaction s.latch.reg (fun b0 b1 t => endTransfer { t with raw := norm t.config.swap b0 b1 }) s

/-- The sequencer's step in PRIM, by the latched opcode (R121, R122); no other position is one of PRIM (10_state.md R23,
log 14). -/
def primStep (s : State) : State :=
  match s.seqStep with
  | .xfer =>
      if s.latch.op = 0x1 then wrbyteTransfer s
      else if s.latch.op = 0x2 then rdwordTransfer s
      else s
  | _ => s

end Sys2Proof.Machine
end

