-- ==== Sys2Proof/Machine/Dispatch.lean ====
section
/-! DEFINITION. The effect of an accepted CMD word: one arm per command (spec 30_encoding.md R101, R105). -/

namespace Sys2Proof.Machine

def exec (i : Instr) (s : State) : Host.Outcome State Fault Refusal :=
  match i with
  | .nop => Sys2Proof.Machine.execNop s
  | .wrbyte reg data => Sys2Proof.Machine.execWrbyte reg data s
  | .rdword reg => Sys2Proof.Machine.execRdword reg s
  | .decode rawIn => Sys2Proof.Machine.execDecode rawIn s
  | .init => Sys2Proof.Machine.execInit s
  | .frame => Sys2Proof.Machine.execFrame s
  | .run => Sys2Proof.Machine.execRun s
  | .stop => Sys2Proof.Machine.execStop s

end Sys2Proof.Machine
end

