-- ==== Sys2Proof/Machine/Sequencer.lean ====
section
/-! DEFINITION. The sequencer's next step (spec 10_state.md R22, R23, 43_acquisition.md R178, 60_exceptions.md R229). -/

namespace Sys2Proof.Machine

/-- The command step of the position `(state, step, k)` (10_state.md R23). -/
def commandStep (s : State) : State :=
  match s.seqState with
  | .idle     => s
  | .init     => initStep s
  | .prim     => primStep s
  | .frame    => frameStep s
  | .runFrame => frameStep s
  | .runWait  => runWaitStep s
  | .halted   => s

/-- The command step of the position `(state, step, k)` is a transaction: a write of INIT (41_init.md R140), the transfer of
WRBYTE or RDWORD (40_bus_primitives.md R121, R122), a READ of FRAME or RUN (43_acquisition.md R170). -/
def State.atTransaction (s : State) : Bool :=
  match s.seqState, s.seqStep with
  | .init, .wPctl    => true
  | .init, .wSclr    => true
  | .init, .wRst     => true
  | .prim, .xfer     => decide (s.latch.op = 0x1) || decide (s.latch.op = 0x2)
  | .frame, .read    => decide (s.k < 64)
  | .runFrame, .read => decide (s.k < 64)
  | _, _             => false

/-- The transaction of the sequencer's next step is in progress: it completes before a cancel is taken (43_acquisition.md
R180, R181). -/
def State.inTransaction (s : State) : Bool := s.onBus && s.atTransaction

/-- The transaction of the sequencer's next step goes onto the wires. With a cancel pending none does: the cancel step is
taken in its place (43_acquisition.md R178). The event itself is the model's form of R181 (log 25). -/
def busStart (s : State) : State :=
  if s.rstN && !s.hung && !s.cancelPend && s.atTransaction then { s with onBus := true } else s

/-- One step of the sequencer, by the priority of 60_exceptions.md R229: reset, then a pending cancel, then the command
step. A transaction in progress is never cut: it ends before a cancel is taken (43_acquisition.md R180, R181). One that never
ends holds every step, the cancel's too (log 5). Where no step is enabled the state is left as it is (log 2). -/
def sequencerStep (s : State) : State :=
  if !s.rstN then s
  else if s.hung then s
  else if s.busy && s.cancelPend && !s.inTransaction then cancelStep s
  else commandStep s

end Sys2Proof.Machine
end

