-- ==== Sys2Proof/Machine/Agents.lean ====
section
/-! DEFINITION. The agents' steps (spec 10_state.md R20): host accesses (40_bus_primitives.md R123-R125), command issue
(30_encoding.md R105), the timer (60_exceptions.md R240), the cancel input, the reset input, and the choice of the agent
that moves next (20_memory.md R91). -/

namespace Sys2Proof.Machine

/-- A host write of `w` to CMD (30_encoding.md R105): the decoder's two rejections come first, then the command's own
checks and effect. -/
def issueCommand (w : Word) (s : State) : Host.Outcome State Fault Refusal :=
  match decodeWord w with
  | .ok i    => exec i s
  | .error e => .next (raiseCmdErr (causeOf e) s)

/-- A host write of `w` to CONFIG (40_bus_primitives.md R124): refused while busy. -/
def writeConfig (w : Word) (s : State) : State :=
  if s.busy then raiseCmdErr .busy s else { s with config := configOf w }

/-- A host write at word offset `addr` (40_bus_primitives.md R124): CONFIG, CMD and STATUS; no effect at any other offset
(10_state.md R27), and none while `rst_n` is 0 (70_reset_and_hazards.md R252). -/
def hostWrite (addr : BitVec 8) (w : Word) (s : State) : Host.Outcome State Fault Refusal :=
  if s.rstN then
    match addr.toNat with
    | 1 => .next (writeConfig w s)
    | 2 => issueCommand w s
    | 3 => .next (writeStatus w s)
    | _ => .next s
  else .next s

/-- A host read at word offset `addr` shows the register on `h_rdata` (40_bus_primitives.md R123). -/
def hostRead (addr : BitVec 8) (s : State) : State := { s with hRdata := readReg s addr }

/-- One access of the host (30_encoding.md R108). A POLL reads, and is done once `(read & mask) = value`; until then it
stays the host's next line. -/
def runHostLine (l : HostLine) (s : State) : Host.Outcome State Fault Refusal :=
  match l with
  | .write a w  => hostWrite a w s
  | .read a     => .next (hostRead a s)
  | .poll a m v =>
      if readReg s a &&& m = v then .next (hostRead a s)
      else .next { hostRead a s with program := .poll a m v :: s.program }

/-- The host's step: the next line of its program, or a free one (log 3). -/
def hostStep (s : State) : Host.Outcome State Fault Refusal :=
  match s.program with
  | l :: ls => runHostLine l { s with program := ls }
  | []      => runHostLine (Config.freeHostLine s.draws) { s with draws := s.draws + 1 }

/-- The timer's step: `now <- now + δ` with any δ > 0 (60_exceptions.md R240); a δ that is not positive is no step of the
timer (log 2). -/
def advanceTime (δ : Rat) (s : State) : State :=
  if 0 < δ then { s with now := s.now + δ } else s

/-- `rst_n` takes a level: at 0 reset is applied, at 1 it is released (70_reset_and_hazards.md R250, R252). -/
def setReset (rstN : Bool) (s : State) : State :=
  if rstN then { s with rstN := true } else applyReset s

/-- The step of one agent. -/
def runEvent (e : Event) (s : State) : Host.Outcome State Fault Refusal :=
  match e with
  | .host           => hostStep s
  | .sequencer      => .next (sequencerStep s)
  | .busStart       => .next (busStart s)
  | .timer δ        => .next (advanceTime δ s)
  | .cancelSample l => .next (sampleCancel l s)
  | .resetLevel l   => .next (setReset l s)

/-- The agent step that comes next in the total order of 20_memory.md R91, and the state without it: the head of the
schedule, or a free event (log 1). -/
def takeEvent (s : State) : Event × State :=
  match s.schedule with
  | e :: es => (e, { s with schedule := es })
  | []      => (Config.freeEvent s.draws, { s with draws := s.draws + 1 })

/-- The word `w` of `nbits` bits put where the next step issues it: it becomes the host's next line, a write to CMD, and
the host's step the next of the order; `rst_n` is released, since a host write has no effect under reset (R252). -/
def placeCommand (s : State) (nbits w : Nat) : State :=
  { s with
    rstN     := true
    schedule := .host :: s.schedule
    program  := .write 2 (BitVec.ofNat 32 (w % 2 ^ nbits)) :: s.program }

end Sys2Proof.Machine
end

