-- ==== Sys2Proof/Machine/Step.lean ====
section
/-! DEFINITION. One step of the block and its environment: one event of the total order (spec 20_memory.md R91). -/

namespace Sys2Proof.Machine

/-- One agent step, taken from the schedule or, where that is empty, from a free value. -/
def step (s : State) : Host.Outcome State Fault Refusal :=
  runEvent (takeEvent s).1 (takeEvent s).2

/-- The state in which the next step issues the command word `w` (log 3). -/
def State.withFetchWord (s : State) (nbits w : Nat) : State := placeCommand s nbits w

end Sys2Proof.Machine
end

