-- ==== Sys2Proof/Machine/Assembler.lean ====
section
/-! DEFINITION. The assembler (spec 30_encoding.md R108, R109). -/

namespace Sys2Proof.Machine

/-- The command a source command stands for, pseudo-instructions expanded (R109); `none` is an assembly error (R108). -/
def assembleCmd (c : AsmCmd) : Option Instr :=
  if c.wellFormed then
    match c with
    | .nop        => some .nop
    | .wrbyte r d => some (.wrbyte (BitVec.ofNat 8 r) (BitVec.ofNat 8 d))
    | .rdword r   => some (.rdword (BitVec.ofNat 8 r))
    | .decode v   => some (.decode (BitVec.ofNat 16 v))
    | .init       => some .init
    | .frame      => some .frame
    | .run        => some .run
    | .stop       => some .stop
    | .setnormal  => some (.wrbyte 0x00 0x00)
    | .clrflags   => some (.wrbyte 0x05 0x0E)
    | .devreset   => some (.wrbyte 0x01 0x3F)
    | .rdpix i    => some (.rdword (pixelReg i))
  else none

/-- A source line as an access of the host, or as a step of the timer (R108). -/
def assembleLine (l : AsmLine) : Option (HostLine ⊕ Event) :=
  if l.wellFormed then
    match l with
    | .write off v  => some (.inl (.write (wordOffset off) (BitVec.ofNat 32 v)))
    | .writeCmd c   => (assembleCmd c).map fun i => .inl (.write 2 (encode i))
    | .read off     => some (.inl (.read (wordOffset off)))
    | .poll off m v => some (.inl (.poll (wordOffset off) (BitVec.ofNat 32 m) (BitVec.ofNat 32 v)))
    | .tick t       => some (.inr (.timer t))
  else none

end Sys2Proof.Machine
end

