-- ==== Sys2Proof/Safety.lean ====
section
/-! DEFINITION. What counts as a sound state of the block, in the terms of the statements: the invariant the spec's rules
keep, and the states that a reset leaves. -/

namespace Sys2Proof.Machine

/-- The position `(state, step, k)` is one that 10_state.md R23 names, and the latched opcode is that of the running
command (R24). -/
abbrev State.PositionOk (s : State) : Prop :=
  match s.seqState with
  | .idle     => True
  | .init     => s.seqStep ∈ [SeqStep.settle1, .wPctl, .wSclr, .wRst, .settle2] ∧ s.latch.op = 0x4
  | .prim     => s.seqStep = .xfer ∧ (s.latch.op = 0x1 ∨ s.latch.op = 0x2)
  | .frame    => (s.seqStep = .read ∧ s.k < 64 ∨ s.seqStep = .stats ∧ s.k = 64) ∧ s.latch.op = 0x5
  | .runFrame => (s.seqStep = .read ∧ s.k < 64 ∨ s.seqStep = .stats ∧ s.k = 64) ∧ s.latch.op = 0x6
  | .runWait  => s.seqStep = .wait ∧ s.latch.op = 0x6
  | .halted   => True

/-- The statistics registers and the bands describe the pixel buffer as it stands: one complete frame (10_state.md R34,
43_acquisition.md R172). -/
abbrev State.FrameComplete (s : State) : Prop :=
  s.minQ = enc32 s.stats.minQ ∧ s.maxQ = enc32 s.stats.maxQ ∧ s.sumQ = enc32 s.stats.sum ∧
  s.avgC = enc32 s.stats.avgC ∧ s.hiU = enc32 s.stats.hiU ∧ s.lowU = enc32 s.stats.lowU ∧
  ∀ i : Fin 64, (s.pixel i).band = (bandOf s.stats (decodeRaw (s.pixel i).raw)).code

/-- `q` is a value the decoder can give (42_decoder.md R151). -/
abbrev InDecodeRange (q : Int) : Prop := -2048 ≤ q ∧ q ≤ 61439

/-- `s` and `t` hold the same block state: every row of the table of 70_reset_and_hazards.md R250. The ports, the
environment and the parameters are left out. -/
abbrev State.SameBlock (s t : State) : Prop :=
  s.seqState = t.seqState ∧ s.seqStep = t.seqStep ∧ s.k = t.k ∧
  s.cancelPend = t.cancelPend ∧ s.cancelPrev = t.cancelPrev ∧ s.waitUntil = t.waitUntil ∧ s.latch = t.latch ∧
  s.config = t.config ∧ s.initDone = t.initDone ∧ s.frameValid = t.frameValid ∧ s.done = t.done ∧
  s.cancelled = t.cancelled ∧ s.cmdErr = t.cmdErr ∧ s.fatal = t.fatal ∧ s.errCode = t.errCode ∧
  s.cmdCause = t.cmdCause ∧ s.errInfo = t.errInfo ∧ s.raw = t.raw ∧ s.frameCnt = t.frameCnt ∧
  s.minQ = t.minQ ∧ s.maxQ = t.maxQ ∧ s.sumQ = t.sumQ ∧ s.avgC = t.avgC ∧ s.hiU = t.hiU ∧ s.lowU = t.lowU ∧
  s.pix = t.pix ∧ s.onBus = t.onBus ∧ s.hung = t.hung

/-- `n` steps of the machine, stopping at a fault or a refusal. -/
def runSteps : Nat → State → Host.Outcome State Fault Refusal
  | 0, s     => .next s
  | n + 1, s =>
    match step s with
    | .next t    => runSteps n t
    | .fault r   => .fault r
    | .refused r => .refused r

/-- The event the next step runs. -/
def State.nextEvent (s : State) : Event := (takeEvent s).1

/-- The line the host runs, if the next step is the host's. -/
def State.nextLine (s : State) : HostLine :=
  match (takeEvent s).2.program with
  | l :: _ => l
  | []     => Config.freeHostLine (takeEvent s).2.draws

/-- The next step applies reset. -/
abbrev State.resetsNext (s : State) : Prop := s.nextEvent = .resetLevel false

/-- The next step is the host's, and it writes `w` at word offset `a`; `u` is the state once the order's and the host's
lists have moved on. -/
abbrev State.Writes (s : State) (a : BitVec 8) (w : Word) (u : State) : Prop :=
  ∃ es ls, s.schedule = .host :: es ∧ s.program = .write a w :: ls ∧ u = { s with schedule := es, program := ls }

/-- No reset is applied, no cancel is pending and no transaction hangs: the sequencer's next step is its command's. -/
abbrev State.Undisturbed (s : State) : Prop := s.rstN = true ∧ s.hung = false ∧ s.cancelPend = false

/-- The sequencer's next step is its command's, whether its transaction is already in progress, with a cancel requested
meanwhile or not, or no cancel is pending (43_acquisition.md R178, R181). -/
abbrev State.StepDue (s : State) : Prop :=
  s.rstN = true ∧ s.hung = false ∧ (s.cancelPend = false ∨ s.inTransaction = true)

/-- The sequencer's next command step, if nothing disturbs it, is BusWriteByte of `data` to register `reg`: a write of INIT
(41_init.md R140) or the transfer of WRBYTE (40_bus_primitives.md R121). -/
abbrev State.NextWrite (s : State) (reg data : Byte) : Prop :=
  s.seqState = .init ∧
    (s.seqStep = .wPctl ∧ reg = 0x00 ∧ data = 0x00 ∨ s.seqStep = .wSclr ∧ reg = 0x05 ∧ data = 0x0E ∨
      s.seqStep = .wRst ∧ reg = 0x01 ∧ data = 0x3F) ∨
  s.seqState = .prim ∧ s.seqStep = .xfer ∧ s.latch.op = 0x1 ∧ reg = s.latch.reg ∧ data = s.latch.imm16.extractLsb' 0 8

/-- The sequencer's next command step, if nothing disturbs it, is BusReadWord of register `reg`: a READ of FRAME or RUN
(43_acquisition.md R170) or the transfer of RDWORD (40_bus_primitives.md R122). -/
abbrev State.NextRead (s : State) (reg : Byte) : Prop :=
  (s.seqState = .frame ∨ s.seqState = .runFrame) ∧ s.seqStep = .read ∧ s.k < 64 ∧
    reg = BitVec.ofNat 8 (0x80 + 2 * s.k) ∨
  s.seqState = .prim ∧ s.seqStep = .xfer ∧ s.latch.op = 0x2 ∧ reg = s.latch.reg

/-- The state after a refused command or CONFIG write (60_exceptions.md R227): the flag is set, and the cause only if
no earlier one stands. -/
def State.withCmdErr (s : State) (cause : CmdCause) : State :=
  { s with cmdErr := true, cmdCause := if s.cmdErr then s.cmdCause else cause }

/-- The invariant that every step keeps. -/
structure State.Inv (s : State) : Prop where
  /-- the position is one of 10_state.md R23 -/
  position   : s.PositionOk
  /-- `k` is 0 to 64 (10_state.md R23) -/
  index      : s.k ≤ 64
  /-- "`cancel_pend = 1` implies busy" (43_acquisition.md R183) -/
  cancel     : s.cancelPend = true → s.busy = true
  /-- FATAL is set exactly in HALTED (60_exceptions.md R222, R223) -/
  halted     : s.fatal = true ↔ s.seqState = .halted
  /-- ERR_CODE is "0 while FATAL = 0" (10_state.md R34), and a fatal error has a code (60_exceptions.md R221) -/
  errCode    : s.errCode ≠ .none ↔ s.fatal = true
  /-- ERRINFO is "written only when a fatal bus error is raised" (10_state.md R35) -/
  errInfo    : s.fatal = false → s.errInfo = ⟨0, false, 0⟩
  /-- CMD_CAUSE is "0 while CMD_ERR = 0" (10_state.md R34), and an error has a cause (60_exceptions.md R226) -/
  cmdCause   : s.cmdCause ≠ .none ↔ s.cmdErr = true
  /-- FRAME_VALID is 1 only while buffer, bands and statistics are one complete frame (10_state.md R34) -/
  frame      : s.frameValid = true → s.FrameComplete
  /-- FRAME_VALID is 0 during an acquisition (43_acquisition.md R173) and 1 in RUN_WAIT (R182) -/
  acquiring  : s.seqState = .frame ∨ s.seqState = .runFrame → s.frameValid = false
  /-- in RUN_WAIT the last frame is complete (43_acquisition.md R182) -/
  waiting    : s.seqState = .runWait → s.frameValid = true
  /-- INIT_DONE is 0 while INIT runs (41_init.md R143) -/
  initialising : s.seqState = .init → s.initDone = false
  /-- FRAME and RUN run only with INIT_DONE = 1 (41_init.md R144) -/
  initDone   : s.seqState = .frame ∨ s.seqState = .runFrame ∨ s.seqState = .runWait → s.initDone = true
  /-- MIN_Q and MAX_Q hold values of the decoder, so that MIN_F and MAX_F are exact (42_decoder.md R155) -/
  extrema    : InDecodeRange s.minQ.toInt ∧ InDecodeRange s.maxQ.toInt
  /-- a transaction is issued only as a step of a running command (20_memory.md R76) -/
  transfer   : s.hung = true → s.busy = true
  /-- a transaction is in progress only where the position's step is one (20_memory.md R76), and does not hang too -/
  progress   : s.onBus = true → s.atTransaction = true ∧ s.hung = false
  /-- "While `rst_n` = 0 ... every piece of state takes its reset value" (70_reset_and_hazards.md R250) -/
  inReset    : s.rstN = false → ∃ n, s.SameBlock (State.resetOf s.cfg n)
  /-- `now` is not negative (60_exceptions.md R240) -/
  time       : 0 ≤ s.now

/-- A state that a reset leaves: the reset table for some build and some draw, whatever the host, the oracle and the
order of steps bring next, and at either level of `rst_n` (70_reset_and_hazards.md R250, R252). -/
def State.IsReset (s : State) : Prop :=
  ∃ c n level schedule program writes reads trace rdata,
    s = { State.resetOf c n with
          rstN         := level
          schedule     := schedule
          program      := program
          writeReplies := writes
          readReplies  := reads
          trace        := trace
          hRdata       := rdata }

end Sys2Proof.Machine
end

