-- ==== Sys2Proof/Certificates/Slice0/Obligations.lean ====
section
/-! DEFINITION. The statements about the block. Each docstring names the rule it formalises. A statement about one
command's issue gives the whole next state, so that what the state does not name is left as it was; a statement about the
sequencer's step does the same for the steps that follow. -/

open Sys2Proof Sys2Proof.Machine

/-! ### Encoding -/

/-- Words written out from the tables of 30_encoding.md R102 and R109 and 95_test_vectors.md §3. -/
def Obligations.TableWordsDecode : Prop :=
  decodeWord 0x00000000 = .ok .nop ∧
  decodeWord 0x00000001 = .ok (.wrbyte 0x00 0x00) ∧
  decodeWord 0x000E0501 = .ok (.wrbyte 0x05 0x0E) ∧
  decodeWord 0x003F0101 = .ok (.wrbyte 0x01 0x3F) ∧
  decodeWord 0x00008002 = .ok (.rdword 0x80) ∧
  decodeWord 0x0000FE02 = .ok (.rdword 0xFE) ∧
  decodeWord 0x08000003 = .ok (.decode 0x0800) ∧
  decodeWord 0x00000004 = .ok .init ∧
  decodeWord 0x00000005 = .ok .frame ∧
  decodeWord 0x00000006 = .ok .run ∧
  decodeWord 0x00000007 = .ok .stop ∧
  decodeWord 0x00000018 = .error .illegalOp ∧
  decodeWord 0x01000001 = .error .reserved ∧
  decodeWord 0x00010002 = .error .reserved ∧
  decodeWord 0x00000103 = .error .reserved ∧
  decodeWord 0x00008005 = .error .reserved

/-- Every command, with every operand, decodes from its own encoding (R100, R106). -/
def Obligations.EveryCommandDecodesFromItsEncoding : Prop :=
  ∀ i : Instr, decodeWord (encode i) = .ok i

/-- A word has at most one meaning and a command one word (R102, R107): what decodes to a command is its encoding. -/
def Obligations.EveryLegalWordIsAnEncoding : Prop :=
  ∀ (w : Word) (i : Instr), decodeWord w = .ok i → encode i = w

/-- Which words are legal (R102), with MASK and MATCH written out: OP alone selects the row, the row's test decides, and
the row's free fields are the operands. -/
def Obligations.LegalWordsAreTheTableRows : Prop :=
  ∀ w : Word,
    (decodeWord w = .error .illegalOp ↔ 8 ≤ w.toNat % 16) ∧
    ((∃ i, decodeWord w = .ok i) ↔
      w &&& 0xFFFFFFFF = 0x00000000 ∨ w &&& 0xFF0000FF = 0x00000001 ∨ w &&& 0xFFFF00FF = 0x00000002 ∨
      w &&& 0x0000FFFF = 0x00000003 ∨ w &&& 0xFFFFFFFF = 0x00000004 ∨ w &&& 0xFFFFFFFF = 0x00000005 ∨
      w &&& 0xFFFFFFFF = 0x00000006 ∨ w &&& 0xFFFFFFFF = 0x00000007) ∧
    (∀ i, decodeWord w = .ok i → i.op.toNat = w.toNat % 16) ∧
    (∀ r d, decodeWord w = .ok (.wrbyte r d) → r.toNat = w.toNat / 2 ^ 8 % 256 ∧ d.toNat = w.toNat / 2 ^ 16 % 256) ∧
    (∀ r, decodeWord w = .ok (.rdword r) → r.toNat = w.toNat / 2 ^ 8 % 256) ∧
    (∀ v, decodeWord w = .ok (.decode v) → v.toNat = w.toNat / 2 ^ 16)

/-! ### Command issue -/

/-- A host write to CMD of a word that decodes runs the command's own effect, once the order's and the host's lists have
moved on (R105). -/
def Obligations.StepRunsTheDecodedCommand : Prop :=
  ∀ (s u : State) (w : Word) (i : Instr), s.rstN = true → s.Writes 2 w u → decodeWord w = .ok i →
    step s = exec i u

/-- A word with an illegal OP, and one that fails its row's MASK and MATCH, raises its command error and changes nothing
else (R103, R104). -/
def Obligations.RejectedWordOnlyRaisesItsCommandError : Prop :=
  ∀ (s u : State) (w : Word), s.rstN = true → s.Writes 2 w u →
    (8 ≤ w.toNat % 16 → step s = .next (u.withCmdErr .illegalOp)) ∧
    (w.toNat % 16 < 8 → w &&& cmdMask (w.toNat % 16) ≠ cmdMatch (w.toNat % 16) →
      step s = .next (u.withCmdErr .reserved))

/-- No step of any agent ends in a fault or a refusal. This is the model's choice, not a rule: that every event ends in a
next state is log 18; a scheduled step that the spec calls not enabled leaves the block as it is (log 2), and so does a
sequencer step while a transaction never ends, where the spec says stuck (log 5). -/
def Obligations.EveryStepHasANextState : Prop :=
  ∀ s : State, ∃ t, step s = .next t

/-- NOP changes nothing in any state, and a word with OP = 0 and any other bit set raises RESERVED (R120). -/
def Obligations.NopChangesNothing : Prop :=
  (∀ s : State, exec .nop s = .next s) ∧
  decodeWord 0 = .ok .nop ∧
  ∀ (s u : State) (w : Word), s.rstN = true → s.Writes 2 w u → w.toNat % 16 = 0 → w ≠ 0 →
    step s = .next (u.withCmdErr .reserved)

/-- WRBYTE and RDWORD issued in IDLE, INIT_DONE or not: the command is latched and the sequencer stands before its
transfer (R105, R121, R122). -/
def Obligations.TransferCommandsStart : Prop :=
  ∀ (s : State) (reg data : Byte), s.seqState = .idle →
    exec (.wrbyte reg data) s =
      .next { s with latch := ⟨0x1, reg, data.zeroExtend 16⟩, seqState := .prim, seqStep := .xfer } ∧
    exec (.rdword reg) s =
      .next { s with latch := ⟨0x2, reg, 0⟩, seqState := .prim, seqStep := .xfer }

/-- WRBYTE as a whole (R121): issued in IDLE, with an oracle that acknowledges, it puts one BusWriteByte on the wires and
ends in IDLE with DONE. That the step name stays at XFER in IDLE is log 13; the field `onBus` is log 25. -/
def Obligations.WrbyteWritesOneDeviceByte : Prop :=
  ∀ (s : State) (reg data : Byte) (ws : List WriteReply),
    s.seqState = .idle → s.Undisturbed → s.writeReplies = .ack :: ws →
      ∃ t, exec (.wrbyte reg data) s = .next t ∧
        sequencerStep t =
          { s with
            latch        := ⟨0x1, reg, data.zeroExtend 16⟩
            seqStep      := .xfer
            done         := true
            onBus        := false
            trace        := s.trace ++ [.write s.config.devAddr reg data (.ok ())]
            writeReplies := ws }

/-- RDWORD as a whole (R122): one BusReadWord, RAW gets the normalised word, and RES_Q and RES_F show its value.
That the step name stays at XFER in IDLE is log 13; the field `onBus` is log 25. -/
def Obligations.RdwordReadsOneDeviceWord : Prop :=
  ∀ (s : State) (reg b0 b1 : Byte) (rs : List ReadReply) (v : Half),
    s.seqState = .idle → s.Undisturbed → s.readReplies = .ack b0 b1 :: rs →
    v = (if s.config.swap then b0 ++ b1 else b1 ++ b0) →
      ∃ t, exec (.rdword reg) s = .next t ∧
        sequencerStep t =
          { s with
            latch       := ⟨0x2, reg, 0⟩
            seqStep     := .xfer
            raw         := v
            done        := true
            onBus       := false
            trace       := s.trace ++ [.read s.config.devAddr reg (.ok (b0, b1))]
            readReplies := rs } ∧
        readReg (sequencerStep t) 0x06 = enc32 (decodeRaw v) ∧
        readReg (sequencerStep t) 0x07 = f32 (decodeRaw v)

/-- DECODE issued in IDLE completes in the same step, whatever SWAP is (R160); that `cmd_latch` is written too is R105's
order read literally (log 16). -/
def Obligations.DecodeCompletesAtIssue : Prop :=
  ∀ (s : State) (v : Half), s.seqState = .idle →
    exec (.decode v) s = .next { s with latch := ⟨0x3, 0, v⟩, raw := v, done := true }

/-- INIT issued in IDLE, INIT_DONE or not (R140, R146): the start clause. -/
def Obligations.InitStarts : Prop :=
  ∀ s : State, s.seqState = .idle →
    exec .init s =
      .next { s with
              latch     := ⟨0x4, 0, 0⟩
              seqState  := .init
              seqStep   := .settle1
              initDone  := false
              waitUntil := s.now + s.cfg.settleTime }

/-- FRAME and RUN issued in IDLE with INIT_DONE = 1: their start clauses (R170, R174). -/
def Obligations.AcquisitionCommandsStart : Prop :=
  ∀ s : State, s.seqState = .idle → s.initDone = true →
    exec .frame s =
      .next { s with latch := ⟨0x5, 0, 0⟩, seqState := .frame, seqStep := .read, k := 0, frameValid := false } ∧
    exec .run s =
      .next { s with latch := ⟨0x6, 0, 0⟩, seqState := .runFrame, seqStep := .read, k := 0, frameValid := false }

/-- FRAME and RUN without INIT_DONE (R144): the command error and nothing else. -/
def Obligations.AcquisitionNeedsInit : Prop :=
  ∀ s : State, s.seqState = .idle → s.initDone = false →
    exec .frame s = .next (s.withCmdErr .notInit) ∧ exec .run s = .next (s.withCmdErr .notInit)

/-- While busy every command but NOP and STOP is rejected, and in HALTED every command but NOP (R105, R226): the rejected
command sets the command error and changes nothing else. -/
def Obligations.BusyAndHaltedRejectCommands : Prop :=
  ∀ (s : State) (i : Instr),
    (s.busy = true → i ≠ .nop → i ≠ .stop → exec i s = .next (s.withCmdErr .busy)) ∧
    (s.seqState = .halted → i ≠ .nop → exec i s = .next (s.withCmdErr .halted))

/-- STOP (R177): its three cases, a second STOP, the words that are no STOP, and the example of RUN_WAIT. -/
def Obligations.StopRequestsACancel : Prop :=
  (∀ s : State,
    (s.busy = true → exec .stop s = .next { s with cancelPend := true }) ∧
    (s.seqState = .idle → exec .stop s = .next s) ∧
    (s.seqState = .halted → exec .stop s = .next (s.withCmdErr .halted)) ∧
    (s.busy = true → s.cancelPend = true → exec .stop s = .next s) ∧
    (s.seqState = .runWait → s.rstN = true → s.hung = false → ∃ t, exec .stop s = .next t ∧
      (sequencerStep t).seqState = .idle ∧ (sequencerStep t).cancelled = true ∧
      (sequencerStep t).frameValid = s.frameValid ∧ (sequencerStep t).pix = s.pix ∧
      (sequencerStep t).trace = s.trace)) ∧
  decodeWord 7 = .ok .stop ∧
  ∀ (s u : State) (w : Word), s.rstN = true → s.Writes 2 w u → w.toNat % 16 = 7 → w ≠ 7 →
    step s = .next (u.withCmdErr .reserved)

/-- What issuing a command leaves alone, whatever the state (R105, R120-R122, R140, R160, R170, R174, R177); the field
`onBus` is log 25. -/
def Obligations.CommandIssueFrame : Prop :=
  ∀ (i : Instr) (s t : State), exec i s = .next t →
    t.config = s.config ∧ t.pix = s.pix ∧ t.frameCnt = s.frameCnt ∧ t.minQ = s.minQ ∧ t.maxQ = s.maxQ ∧
    t.sumQ = s.sumQ ∧ t.avgC = s.avgC ∧ t.hiU = s.hiU ∧ t.lowU = s.lowU ∧ t.fatal = s.fatal ∧
    t.errCode = s.errCode ∧ t.errInfo = s.errInfo ∧ t.cancelled = s.cancelled ∧ t.cancelPrev = s.cancelPrev ∧
    t.trace = s.trace ∧ t.now = s.now ∧ t.onBus = s.onBus ∧ t.hung = s.hung ∧ t.rstN = s.rstN ∧
    t.hRdata = s.hRdata ∧ t.cfg = s.cfg ∧ t.schedule = s.schedule ∧ t.program = s.program ∧
    t.writeReplies = s.writeReplies ∧ t.readReplies = s.readReplies ∧ t.draws = s.draws ∧
    ((∀ v, i ≠ .decode v) → t.raw = s.raw ∧ t.done = s.done) ∧
    (i ≠ .init → t.initDone = s.initDone ∧ t.waitUntil = s.waitUntil) ∧
    (i ≠ .frame → i ≠ .run → t.frameValid = s.frameValid ∧ t.k = s.k) ∧
    (i ≠ .stop → t.cancelPend = s.cancelPend)

/-! ### The sequencer -/

/-- What a step of the sequencer leaves alone, in every position (R121, R122, R140, R170-R178, R222); the field `onBus` is
log 25. -/
def Obligations.SequencerStepFrame : Prop :=
  ∀ s : State,
    (sequencerStep s).config = s.config ∧ (sequencerStep s).latch = s.latch ∧
    (sequencerStep s).cmdErr = s.cmdErr ∧ (sequencerStep s).cmdCause = s.cmdCause ∧
    (sequencerStep s).cancelPrev = s.cancelPrev ∧ (sequencerStep s).hRdata = s.hRdata ∧
    (sequencerStep s).rstN = s.rstN ∧ (sequencerStep s).now = s.now ∧ (sequencerStep s).cfg = s.cfg ∧
    (sequencerStep s).schedule = s.schedule ∧ (sequencerStep s).program = s.program ∧
    ((sequencerStep s).onBus = true → s.onBus = true) ∧
    (s.seqState ≠ .prim → (sequencerStep s).raw = s.raw) ∧
    (s.seqState ≠ .frame → s.seqState ≠ .runFrame → (sequencerStep s).pix = s.pix) ∧
    (s.seqState ≠ .init → (sequencerStep s).initDone = s.initDone) ∧
    (∀ i : Fin 64, i.val ≠ s.k → ((sequencerStep s).pixel i).raw = (s.pixel i).raw)

/-- The INIT waits are lower bounds (R140, R142, 20_memory.md R88): before `wait_until` a SETTLE step is not enabled, and
no transaction happens. -/
def Obligations.SettleWaitIsALowerBound : Prop :=
  ∀ s : State, s.seqState = .init → (s.seqStep = .settle1 ∨ s.seqStep = .settle2) → s.cancelPend = false →
    s.now < s.waitUntil → sequencerStep s = s

/-- INIT as a whole (R140, R141; that the step name stays at SETTLE2 is log 13, the field `onBus` log 25): from an idle
block, the CMD write, a wait of at least SETTLE_TIME, the writes 00 <- 00, 05 <- 0E, 01 <- 3F in this order with no wait
between them, another wait, and INIT_DONE with DONE in IDLE. -/
def Obligations.InitRunsItsSequence : Prop :=
  ∀ (s : State) (δ₁ δ₂ : Rat) (es : List Event) (ls : List HostLine) (ws : List WriteReply),
    s.seqState = .idle → s.Undisturbed → 0 < δ₁ → 0 < δ₂ → s.cfg.settleTime ≤ δ₁ → s.cfg.settleTime ≤ δ₂ →
    s.schedule = .host :: .timer δ₁ :: .sequencer :: .sequencer :: .sequencer :: .sequencer :: .timer δ₂ ::
      .sequencer :: es →
    s.program = .write 2 0x00000004 :: ls →
    s.writeReplies = .ack :: .ack :: .ack :: ws →
      runSteps 8 s =
        .next { s with
                latch        := ⟨0x4, 0, 0⟩
                seqStep      := .settle2
                initDone     := true
                done         := true
                now          := s.now + δ₁ + δ₂
                waitUntil    := s.now + δ₁ + s.cfg.settleTime
                onBus        := false
                trace        := s.trace ++
                  [.write s.config.devAddr 0x00 0x00 (.ok ()), .write s.config.devAddr 0x05 0x0E (.ok ()),
                    .write s.config.devAddr 0x01 0x3F (.ok ())]
                schedule     := es
                program      := ls
                writeReplies := ws }

/-- A READ step of FRAME or RUN (R170, R171): register 0x80 + 2·k, the normalised word to `pix[k]`, no other entry and no
band touched. It holds also of a read in progress when a cancel is requested, whose result is written (R181); the
field `onBus` is log 25. -/
def Obligations.ReadStepStoresOnePixel : Prop :=
  ∀ (s : State) (b0 b1 : Byte) (rs : List ReadReply),
    (s.seqState = .frame ∨ s.seqState = .runFrame) → s.seqStep = .read → s.k < 64 → s.StepDue →
    s.readReplies = .ack b0 b1 :: rs →
      sequencerStep s =
        { s with
          pix         := (sequencerStep s).pix
          k           := s.k + 1
          seqStep     := if s.k = 63 then .stats else .read
          onBus       := false
          trace       := s.trace ++ [.read s.config.devAddr (BitVec.ofNat 8 (0x80 + 2 * s.k)) (.ok (b0, b1))]
          readReplies := rs } ∧
      ∀ i : Fin 64, (sequencerStep s).pixel i =
        if i.val = s.k then ⟨if s.config.swap then b0 ++ b1 else b1 ++ b0, (s.pixel i).band⟩ else s.pixel i

/-- The frame-completion step (R172): statistics, bands, count and flags in one step, computed from this frame's 64
words, which it keeps; and where the sequencer goes from FRAME and from RUN_FRAME. -/
def Obligations.StatsStepCompletesTheFrame : Prop :=
  ∀ s : State, (s.seqState = .frame ∨ s.seqState = .runFrame) → s.seqStep = .stats → s.Undisturbed →
    (sequencerStep s).minQ = enc32 (frameStats (decodedPixels s.pix)).minQ ∧
    (sequencerStep s).maxQ = enc32 (frameStats (decodedPixels s.pix)).maxQ ∧
    (sequencerStep s).sumQ = enc32 (frameStats (decodedPixels s.pix)).sum ∧
    (sequencerStep s).avgC = enc32 (frameStats (decodedPixels s.pix)).avgC ∧
    (sequencerStep s).hiU = enc32 (frameStats (decodedPixels s.pix)).hiU ∧
    (sequencerStep s).lowU = enc32 (frameStats (decodedPixels s.pix)).lowU ∧
    (∀ i : Fin 64, (sequencerStep s).pixel i =
      ⟨(s.pixel i).raw, (bandOf (frameStats (decodedPixels s.pix)) (decodeRaw (s.pixel i).raw)).code⟩) ∧
    (sequencerStep s).frameCnt.toNat = (s.frameCnt.toNat + 1) % 2 ^ 32 ∧
    (sequencerStep s).frameValid = true ∧ (sequencerStep s).done = true ∧
    (sequencerStep s).trace = s.trace ∧ (sequencerStep s).raw = s.raw ∧
    (s.seqState = .frame → (sequencerStep s).seqState = .idle) ∧
    (s.seqState = .runFrame → (sequencerStep s).seqState = .runWait ∧ (sequencerStep s).seqStep = .wait ∧
      (sequencerStep s).waitUntil = s.now + s.cfg.frameInterval)

/-- FRAME as a whole (R170-R172): from an idle, initialised block and an oracle that answers 64 reads, the CMD write and
65 sequencer steps read the registers 0x80, 0x82, ..., 0xFE in this order, fill the buffer, and complete the frame. The
field `onBus` is log 25. -/
def Obligations.FrameRunsToCompletion : Prop :=
  ∀ (s : State) (b : Fin 64 → Byte × Byte) (es : List Event) (ls : List HostLine) (rs : List ReadReply),
    s.seqState = .idle → s.Undisturbed → s.initDone = true →
    s.schedule = .host :: (List.replicate 65 .sequencer ++ es) →
    s.program = .write 2 0x00000005 :: ls →
    s.readReplies = (List.ofFn fun i => ReadReply.ack (b i).1 (b i).2) ++ rs →
      ∃ t, runSteps 66 s = .next t ∧
        t.seqState = .idle ∧ t.frameValid = true ∧ t.done = true ∧ t.FrameComplete ∧ t.onBus = false ∧
        t.frameCnt = s.frameCnt + 1 ∧ t.raw = s.raw ∧ t.initDone = true ∧ t.config = s.config ∧
        t.trace = s.trace ++ (List.ofFn fun i : Fin 64 =>
          BusRecord.read s.config.devAddr (BitVec.ofNat 8 (0x80 + 2 * i.val)) (.ok (b i))) ∧
        (∀ i : Fin 64, (t.pixel i).raw =
          if s.config.swap then (b i).1 ++ (b i).2 else (b i).2 ++ (b i).1) ∧
        t.schedule = es ∧ t.program = ls ∧ t.readReplies = rs

/-- The RUN_WAIT step (R175): not enabled before `wait_until`, then the next frame starts; and the default of
FRAME_INTERVAL, 1000 ms. -/
def Obligations.RunWaitStartsTheNextFrame : Prop :=
  (∀ s : State, s.seqState = .runWait → s.Undisturbed →
    (s.waitUntil ≤ s.now → sequencerStep s =
      { s with seqState := .runFrame, seqStep := .read, k := 0, frameValid := false }) ∧
    (s.now < s.waitUntil → sequencerStep s = s)) ∧
  Config.defaults.frameInterval = 1

/-- The cancel step (R178): in every busy state with a cancel pending it comes next, even inside a wait, unless a
transaction is in progress; the environment step that samples `cancel_i`; and what a cancel meets that is requested while a
transaction is in progress (R180, R181). The transaction ends: an acknowledged one writes its result (the step of INIT, RAW;
the pixel is ReadStepStoresOnePixel's), DONE stays as it was, and the cancel step follows. That `onBus` says when a
transaction is in progress, that it begins by an event of its own, and that WRBYTE and RDWORD then wait in PRIM for the
cancel step, are log 25. -/
def Obligations.CancelIsTakenNext : Prop :=
  (∀ s : State, s.rstN = true →
    (s.busy = true → s.cancelPend = true → s.hung = false → s.inTransaction = false →
      sequencerStep s =
        { s with seqState := .idle, seqStep := .none, k := 0, cancelPend := false, cancelled := true }) ∧
    ∀ (level : Bool) (es : List Event), s.schedule = .cancelSample level :: es →
      step s =
        .next { s with
                schedule   := es
                cancelPrev := level
                cancelPend :=
                  if level = true ∧ s.cancelPrev = false ∧ s.busy = true then true else s.cancelPend }) ∧
  (∀ (s : State) (es : List Event), s.schedule = .busStart :: es →
    step s =
      .next { s with
              schedule := es
              onBus    :=
                if s.rstN = true ∧ s.hung = false ∧ s.cancelPend = false ∧
                    ((∃ reg data, s.NextWrite reg data) ∨ ∃ reg, s.NextRead reg)
                then true else s.onBus }) ∧
  ∀ s : State, s.rstN = true → s.hung = false → s.onBus = true → s.cancelPend = true →
    (∀ (reg data : Byte) (ws : List WriteReply), s.NextWrite reg data → s.writeReplies = .ack :: ws →
      sequencerStep s =
        { s with
          seqStep      :=
            match s.seqStep with
            | .wPctl => .wSclr
            | .wSclr => .wRst
            | .wRst  => .settle2
            | q      => q
          waitUntil    := if s.seqStep = .wRst then s.now + s.cfg.settleTime else s.waitUntil
          onBus        := false
          trace        := s.trace ++ [.write s.config.devAddr reg data (.ok ())]
          writeReplies := ws } ∧
      sequencerStep (sequencerStep s) =
        { sequencerStep s with
          seqState := .idle, seqStep := .none, k := 0, cancelPend := false, cancelled := true }) ∧
    ∀ (reg b0 b1 : Byte) (rs : List ReadReply), s.NextRead reg → s.readReplies = .ack b0 b1 :: rs →
      (s.seqState = .prim →
        sequencerStep s =
          { s with
            raw         := if s.config.swap then b0 ++ b1 else b1 ++ b0
            onBus       := false
            trace       := s.trace ++ [.read s.config.devAddr reg (.ok (b0, b1))]
            readReplies := rs }) ∧
      sequencerStep (sequencerStep s) =
        { sequencerStep s with
          seqState := .idle, seqStep := .none, k := 0, cancelPend := false, cancelled := true }

/-- CANCELLED is set only by the cancel step, and stays set until the host writes 1 to STATUS bit 7 (R179) or reset is
applied (R250). -/
def Obligations.CancelledFollowsTheCancelStep : Prop :=
  ∀ s t : State, step s = .next t →
    (s.cancelled = false → t.cancelled = true →
      s.nextEvent = .sequencer ∧ s.busy = true ∧ s.cancelPend = true ∧ t.seqState = .idle) ∧
    (s.cancelled = true → t.cancelled = false →
      s.resetsNext ∨ s.nextEvent = .host ∧ ∃ w : Word, s.nextLine = .write 3 w ∧ w.getLsbD 7 = true)

/-! ### Errors -/

/-- A failed transaction, of whatever command (R222): FATAL, the cause, ERRINFO from the failed transaction and the
latched opcode, HALTED, no pending cancel; and the rest is the state after the last successful step. First for the step
that leaves a failed record, then for every step whose answer from the oracle is a failure: also where a cancel was
requested while the transaction was in progress, which the fatal error clears, CANCELLED left as it was (R181). That `onBus`
says when one is in progress is log 25. -/
def Obligations.FailedTransactionHalts : Prop :=
  (∀ (s : State) (a : BitVec 7) (reg : Byte) (c : ErrCode) (rw : Bool),
    (rw = true ∧ (sequencerStep s).trace = s.trace ++ [.read a reg (.fail c)] ∨
      rw = false ∧ ∃ d, (sequencerStep s).trace = s.trace ++ [.write a reg d (.fail c)]) →
    c ≠ .none ∧
    (readReg (sequencerStep s) 0x04).toNat = 2 ^ 12 * s.latch.op.toNat + 2 ^ 8 * rw.toNat + reg.toNat ∧
    sequencerStep s =
      { s with
        fatal        := true
        errCode      := c
        errInfo      := ⟨reg, rw, s.latch.op⟩
        seqState     := .halted
        seqStep      := .none
        cancelPend   := false
        onBus        := false
        trace        := (sequencerStep s).trace
        writeReplies := (sequencerStep s).writeReplies
        readReplies  := (sequencerStep s).readReplies
        draws        := (sequencerStep s).draws }) ∧
  (∀ (s : State) (reg data : Byte) (r : WriteReply) (ws : List WriteReply) (c : ErrCode),
    s.StepDue → s.NextWrite reg data → s.writeReplies = r :: ws → writeResult s.cfg.busTimeout r = .fail c →
    sequencerStep s =
      { s with
        fatal        := true
        errCode      := c
        errInfo      := ⟨reg, false, s.latch.op⟩
        seqState     := .halted
        seqStep      := .none
        cancelPend   := false
        onBus        := false
        trace        := s.trace ++ [.write s.config.devAddr reg data (.fail c)]
        writeReplies := ws }) ∧
  ∀ (s : State) (reg : Byte) (r : ReadReply) (rs : List ReadReply) (c : ErrCode),
    s.StepDue → s.NextRead reg → s.readReplies = r :: rs → readResult s.cfg.busTimeout r = .fail c →
    sequencerStep s =
      { s with
        fatal       := true
        errCode     := c
        errInfo     := ⟨reg, true, s.latch.op⟩
        seqState    := .halted
        seqStep     := .none
        cancelPend  := false
        onBus       := false
        trace       := s.trace ++ [.read s.config.devAddr reg (.fail c)]
        readReplies := rs }

/-- The failures a transaction can end with, and the codes of STATUS.ERR_CODE (20_memory.md R82, 60_exceptions.md R221):
no write ends with RADDR_NACK and no read with DATA_NACK, and TIMEOUT needs a finite BUS_TIMEOUT (20_memory.md R98). The
result of every answer of the oracle is given; that a held SCL ends with TIMEOUT or never is the model's reading (log 5). -/
def Obligations.FailureCodesByTransaction : Prop :=
  (∀ (lim : Option Rat) (r : WriteReply) (c : ErrCode), writeResult lim r = .fail c →
    c ∈ [ErrCode.addrNack, .regNack, .dataNack, .arbLost, .timeout] ∧ (c = .timeout → lim ≠ none)) ∧
  (∀ (lim : Option Rat) (r : ReadReply) (c : ErrCode), readResult lim r = .fail c →
    c ∈ [ErrCode.addrNack, .regNack, .raddrNack, .arbLost, .timeout] ∧ (c = .timeout → lim ≠ none)) ∧
  (∀ (lim : Option Rat) (r : WriteReply), writeResult lim r = .held ↔ r = .sclHeld ∧ lim = none) ∧
  (∀ (lim : Option Rat) (r : ReadReply), readResult lim r = .held ↔ r = .sclHeld ∧ lim = none) ∧
  (∀ t : Rat, writeResult (some t) .sclHeld = .fail .timeout ∧ readResult (some t) .sclHeld = .fail .timeout) ∧
  (∀ lim : Option Rat,
    [WriteReply.ack, .addrNack, .regNack, .dataNack, .arbLost].map (writeResult lim) =
      [.ok (), .fail .addrNack, .fail .regNack, .fail .dataNack, .fail .arbLost] ∧
    [ReadReply.addrNack, .regNack, .raddrNack, .arbLost].map (readResult lim) =
      [.fail .addrNack, .fail .regNack, .fail .raddrNack, .fail .arbLost] ∧
    ∀ b0 b1 : Byte, readResult lim (.ack b0 b1) = .ok (b0, b1)) ∧
  [ErrCode.none, .addrNack, .regNack, .dataNack, .raddrNack, .arbLost, .timeout].map ErrCode.code =
    [0, 1, 2, 3, 4, 5, 6]

/-- HALTED is final until reset (R223): whatever agent moves, short of reset, the block stays HALTED with the first
error's record, puts nothing on the wires and writes no result. -/
def Obligations.HaltedIsFinalUntilReset : Prop :=
  ∀ s t : State, s.seqState = .halted → ¬ s.resetsNext → step s = .next t →
    t.seqState = .halted ∧ t.fatal = s.fatal ∧ t.errCode = s.errCode ∧ t.errInfo = s.errInfo ∧
    t.trace = s.trace ∧ t.pix = s.pix ∧ t.raw = s.raw ∧ t.frameCnt = s.frameCnt ∧
    t.frameValid = s.frameValid ∧ t.initDone = s.initDone ∧ (t.cancelPend = true → s.cancelPend = true)

/-- A held SCL with an infinite BUS_TIMEOUT (20_memory.md R98, 93_implementation_defined.md U7): the sequencer takes no
further step, a cancel waits (43_acquisition.md R180), no step but a reset ends it, and the master has released SCL; and the
step that starts it changes nothing but the history and the answer used up. The field `hung` is the model's form of it
(log 5); that SDA keeps one level all through it is the model's choice (log 26), no rule. -/
def Obligations.HeldBusHoldsTheSequencer : Prop :=
  (∀ s : State, s.hung = true →
    sequencerStep s = s ∧ s.sclOe = false ∧
    ∀ t, ¬ s.resetsNext → step s = .next t → t.hung = true ∧ t.trace = s.trace ∧ t.sdaOe = s.sdaOe) ∧
  (∀ (s : State) (reg data : Byte) (r : WriteReply) (ws : List WriteReply),
    s.StepDue → s.NextWrite reg data → s.writeReplies = r :: ws → writeResult s.cfg.busTimeout r = .held →
    sequencerStep s =
      { s with
        onBus        := false
        hung         := true
        trace        := s.trace ++ [.write s.config.devAddr reg data .held]
        writeReplies := ws }) ∧
  ∀ (s : State) (reg : Byte) (r : ReadReply) (rs : List ReadReply),
    s.StepDue → s.NextRead reg → s.readReplies = r :: rs → readResult s.cfg.busTimeout r = .held →
    sequencerStep s =
      { s with
        onBus       := false
        hung        := true
        trace       := s.trace ++ [.read s.config.devAddr reg .held]
        readReplies := rs }

/-- `raise CmdErr(cause)` (R227): the first cause is kept, nothing else changes, and a write of 1 to STATUS bit 8 clears
both fields. -/
def Obligations.FirstCommandErrorIsKept : Prop :=
  ∀ (s : State) (cause : CmdCause),
    (s.cmdErr = false → raiseCmdErr cause s = { s with cmdErr := true, cmdCause := cause }) ∧
    (s.cmdErr = true → raiseCmdErr cause s = s) ∧
    (∀ (w : Word) (t u : State), s.rstN = true → (raiseCmdErr cause s).Writes 3 w u → w.getLsbD 8 = true →
      step (raiseCmdErr cause s) = .next t → t.cmdErr = false ∧ t.cmdCause = .none) ∧
    ∀ a : BitVec 8, a ≠ 3 → readReg (raiseCmdErr cause s) a = readReg s a

/-! ### Host access -/

/-- The register window as the host reads it (R26, R27, R31, R33, R35-R43, R46, R47, R123): views show stored fields, CMD
and the reserved offsets read 0. -/
def Obligations.RegisterWindowReads : Prop :=
  ∀ s : State,
    readReg s 0x00 = 0x414D4738 ∧ readReg s 0x02 = 0 ∧
    (readReg s 0x04).toNat =
      s.errInfo.errReg.toNat + 256 * s.errInfo.errRw.toNat + 4096 * s.errInfo.errOp.toNat ∧
    (readReg s 0x05).toNat = s.raw.toNat ∧
    readReg s 0x06 = enc32 (decodeRaw s.raw) ∧ readReg s 0x07 = f32 (decodeRaw s.raw) ∧
    readReg s 0x08 = s.frameCnt ∧ readReg s 0x09 = s.minQ ∧ readReg s 0x0A = s.maxQ ∧
    readReg s 0x0B = s.sumQ ∧ readReg s 0x0C = s.avgC ∧ readReg s 0x0D = s.hiU ∧ readReg s 0x0E = s.lowU ∧
    readReg s 0x0F = f32 s.minQ.toInt ∧ readReg s 0x10 = f32 s.maxQ.toInt ∧
    (∀ a : BitVec 8, 0x11 ≤ a.toNat → a.toNat ≤ 0x3F → readReg s a = 0) ∧
    ∀ i : Fin 64,
      (readReg s (BitVec.ofNat 8 (0x40 + i.val))).toNat =
        (s.pixel i).raw.toNat + 65536 * (s.pixel i).band.toNat ∧
      readReg s (BitVec.ofNat 8 (0x80 + i.val)) = enc32 (decodeRaw (s.pixel i).raw) ∧
      readReg s (BitVec.ofNat 8 (0xC0 + i.val)) = f32 (decodeRaw (s.pixel i).raw)

/-- CONFIG (R32): its fields by bit position, a write while not busy, and the refusal while busy. -/
def Obligations.ConfigReadsAndWrites : Prop :=
  ∀ (s : State) (w : Word),
    (readReg s 0x01).toNat =
      s.config.irqEn.toNat + 2 * s.config.swap.toNat + 256 * s.config.devAddr.toNat ∧
    (∀ u, s.rstN = true → s.busy = false → s.Writes 1 w u → ∃ t, step s = .next t ∧
      t = { u with config := t.config } ∧ readReg t 0x01 = w &&& 0x00007F03) ∧
    (∀ u, s.rstN = true → s.busy = true → s.Writes 1 w u → step s = .next (u.withCmdErr .busy))

/-- STATUS (R34): its fields by bit position, with the codes of STATE and CMD_CAUSE (R22, R226), and the clears a host
write makes. -/
def Obligations.StatusReadsAndClears : Prop :=
  [SeqState.idle, .init, .prim, .frame, .runFrame, .runWait, .halted].map (fun q => (q.code, q.busy)) =
    [(0, false), (1, true), (2, true), (3, true), (4, true), (5, true), (6, false)] ∧
  [CmdCause.none, .illegalOp, .reserved, .busy, .notInit, .halted].map CmdCause.code = [0, 1, 2, 3, 4, 5] ∧
  ∀ (s : State) (w : Word),
    (readReg s 0x03).toNat =
      s.seqState.code.toNat + 8 * s.busy.toNat + 16 * s.initDone.toNat + 32 * s.frameValid.toNat +
      64 * s.done.toNat + 128 * s.cancelled.toNat + 256 * s.cmdErr.toNat + 512 * s.fatal.toNat +
      4096 * s.errCode.code.toNat + 65536 * s.cmdCause.code.toNat ∧
    (∀ u, s.rstN = true → s.Writes 3 w u → step s =
      .next { u with
              done      := if w.getLsbD 6 then false else s.done
              cancelled := if w.getLsbD 7 then false else s.cancelled
              cmdErr    := if w.getLsbD 8 then false else s.cmdErr
              cmdCause  := if w.getLsbD 8 then .none else s.cmdCause })

/-- A host write at any other offset has no effect and raises no error (R27, R124), and under reset none has (R252). -/
def Obligations.OtherWritesHaveNoEffect : Prop :=
  ∀ (s u : State) (a : BitVec 8) (w : Word), s.Writes a w u →
    (a ≠ 1 → a ≠ 2 → a ≠ 3 → step s = .next u) ∧ (s.rstN = false → step s = .next u)

/-- A host read returns the register and has no side effect on the block, and a POLL is a read that stays the host's
next line until the masked value is seen (R123, R108). The field `hRdata` is the model's `h_rdata` (log 10). -/
def Obligations.HostReadsHaveNoSideEffect : Prop :=
  ∀ (s : State) (a : BitVec 8) (es : List Event) (ls : List HostLine), s.schedule = .host :: es →
    (s.program = .read a :: ls →
      step s = .next { s with schedule := es, program := ls, hRdata := readReg s a }) ∧
    ∀ m v : Word, s.program = .poll a m v :: ls →
      step s = .next { s with
                       schedule := es
                       program  := if readReg s a &&& m = v then ls else s.program
                       hRdata   := readReg s a }

/-- The interrupt output, from the registers as the host reads them (R232). -/
def Obligations.InterruptOutputLevel : Prop :=
  ∀ s : State, irqO s =
    ((readReg s 1).getLsbD 0 &&
      ((readReg s 3).getLsbD 6 || (readReg s 3).getLsbD 7 || (readReg s 3).getLsbD 8 || (readReg s 3).getLsbD 9))

/-- CONFIG does not change while the block is busy, whatever agent moves, short of reset (R262). -/
def Obligations.ConfigIsConstantWhileBusy : Prop :=
  ∀ s t : State, s.busy = true → ¬ s.resetsNext → step s = .next t → t.config = s.config

/-! ### Reset and time -/

/-- Reset (R250): every row of the table, for the build's own defaults, in every state; `irq_o` is 0 (R253); and the
default parameters of 00_scope.md R8. The pixel buffer is any draw (log 9), `now` is 0 (R240, log 7), no transaction
is in progress or hangs (the fields `onBus` and `hung`, log 25 and log 5), both wires are released,
and the release of `rst_n` (R252) changes nothing but its level. -/
def Obligations.ResetGivesTheTable : Prop :=
  (∀ (s : State) (es : List Event), s.schedule = .resetLevel false :: es → ∃ t, step s = .next t ∧
    t.seqState = .idle ∧ t.seqStep = .none ∧ t.k = 0 ∧ t.cancelPend = false ∧ t.cancelPrev = false ∧
    t.waitUntil = 0 ∧ t.latch = ⟨0, 0, 0⟩ ∧ t.onBus = false ∧ t.hung = false ∧ t.rstN = false ∧ t.trace = s.trace ∧ t.now = 0 ∧
    t.sclOe = false ∧ t.sdaOe = false ∧
    readReg t 0x00 = 0x414D4738 ∧ readReg t 0x03 = 0 ∧
    t.config = ⟨false, s.cfg.swapDefault, s.cfg.devAddrDefault⟩ ∧ irqO t = false ∧
    (∀ a : BitVec 8, 4 ≤ a.toNat → a.toNat ≤ 0x10 → readReg t a = 0) ∧
    ∃ n, t.pix = freePixels n) ∧
  (∀ (s : State) (es : List Event), s.schedule = .resetLevel true :: es →
    step s = .next { s with schedule := es, rstN := true }) ∧
  State.reset.cfg.devAddrDefault = 0x69 ∧ State.reset.cfg.swapDefault = false ∧
  State.reset.cfg.settleTime = 1 / 10 ∧ State.reset.cfg.frameInterval = 1

/-- The timer (R240): any positive time passes and nothing else changes. -/
def Obligations.TimerOnlyAdvancesNow : Prop :=
  ∀ (s : State) (δ : Rat) (es : List Event), 0 < δ → s.schedule = .timer δ :: es →
    step s = .next { s with schedule := es, now := s.now + δ }

/-! ### Wires -/

/-- `ls` is the sequence `ws` up to a bit in which the block, not listening, has released SDA and senses it low while SCL is
high, and the STOP attempted then (R82: "the master released SDA high but sensed it low"). -/
def LostIn (ws ls : List WireSym) : Prop :=
  ∃ pre w post p other, ws = pre ++ w :: post ∧ ls = pre ++ [.sdaLost w p, .stopAttempt other] ∧
    (∀ b, w ≠ .byte .target b) ∧ w ≠ .ack .target ∧ w.blockPulls[p]? = some (false, false) ∧
    (WireSym.sdaLost w p).blockPulls = w.blockPulls.take (p + 1) ∧
    (WireSym.sdaLost w p).levels.getLast? = some (true, false)

/-- `ls` is the sequence `ws` up to a bit in which the block has released SCL and senses it low, and the STOP attempted then
(R82, R98). -/
def StuckIn (ws ls : List WireSym) : Prop :=
  ∃ pre w post p other sda, ws = pre ++ w :: post ∧ ls = pre ++ [.sclStuck w p, .stopAttempt other] ∧
    w.blockPulls[p]? = some (false, sda) ∧
    (WireSym.sclStuck w p).blockPulls = w.blockPulls.take (p + 1) ∧
    ∃ level, (WireSym.sclStuck w p).levels.getLast? = some (false, level)

/-- The wire sequences of the two transactions when they succeed, and of a failed acknowledge (20_memory.md R80, R81, R82),
with the address byte of R77 and who sends what; of one that ARB_LOST or TIMEOUT ends, which stops in a bit of that sequence
and goes on with both wires released and a STOP attempted (R82); then the levels of the wires through each symbol (R77), and
the block's pull-downs `scl_oe` and `sda_oe` (10_state.md R25): both released between transactions (R76), and SDA released
while the target sends. The order of the levels within a bit is the model's (log 17), and so is that ARB_LOST and TIMEOUT can
come in any bit their condition allows, as a free value (log 27). -/
def Obligations.TransactionWireSequences : Prop :=
  (∀ (n : Nat) (a : BitVec 7) (r d b0 b1 aw ar : Byte), aw.toNat = 2 * a.toNat → ar.toNat = 2 * a.toNat + 1 →
    wire n (.write a r d (.ok ())) =
      some [.start, .byte .block aw, .ack .target, .byte .block r, .ack .target, .byte .block d, .ack .target, .stop] ∧
    wire n (.read a r (.ok (b0, b1))) =
      some [.start, .byte .block aw, .ack .target, .byte .block r, .ack .target, .restart, .byte .block ar, .ack .target,
        .byte .target b0, .ack .block, .byte .target b1, .nack, .stop] ∧
    wire n (.write a r d (.fail .addrNack)) = some [.start, .byte .block aw, .nack, .stop] ∧
    wire n (.write a r d (.fail .regNack)) =
      some [.start, .byte .block aw, .ack .target, .byte .block r, .nack, .stop] ∧
    wire n (.write a r d (.fail .dataNack)) =
      some [.start, .byte .block aw, .ack .target, .byte .block r, .ack .target, .byte .block d, .nack, .stop] ∧
    wire n (.read a r (.fail .addrNack)) = some [.start, .byte .block aw, .nack, .stop] ∧
    wire n (.read a r (.fail .regNack)) =
      some [.start, .byte .block aw, .ack .target, .byte .block r, .nack, .stop] ∧
    wire n (.read a r (.fail .raddrNack)) =
      some [.start, .byte .block aw, .ack .target, .byte .block r, .ack .target, .restart, .byte .block ar, .nack,
        .stop]) ∧
  (∀ (n : Nat) (a : BitVec 7) (r d : Byte),
    (∃ ws, wire n (.write a r d (.ok ())) = some ws ∧
      (∃ ls, wire n (.write a r d (.fail .arbLost)) = some ls ∧ LostIn ws ls) ∧
      ∃ ls, wire n (.write a r d (.fail .timeout)) = some ls ∧ StuckIn ws ls) ∧
    ∃ b0 b1 ws, wire n (.read a r (.ok (b0, b1))) = some ws ∧
      (∃ ls, wire n (.read a r (.fail .arbLost)) = some ls ∧ LostIn ws ls) ∧
      ∃ ls, wire n (.read a r (.fail .timeout)) = some ls ∧ StuckIn ws ls) ∧
  (∀ v, (WireSym.stopAttempt v).blockPulls = [(false, false), (true, true), (false, true), (false, false)]) ∧
  WireSym.start.levels = [(true, true), (true, false)] ∧
  WireSym.restart.levels = [(false, true), (true, true), (true, false)] ∧
  WireSym.stop.levels = [(false, false), (true, false), (true, true)] ∧
  WireSym.nack.levels = [(false, true), (true, true), (false, true)] ∧
  (∀ x : Side, (WireSym.ack x).levels = [(false, false), (true, false), (false, false)]) ∧
  (∀ (x : Side) (b : Byte), ((WireSym.byte x b).levels.filter fun l => l.1).map (fun l => l.2) =
    (List.range 8).map fun i => b.getLsbD (7 - i)) ∧
  (∀ b : Byte, (WireSym.byte .target b).blockPulls.all fun p => !p.2) ∧
  ((WireSym.ack .target).blockPulls.all fun p => !p.2) ∧
  ((WireSym.ack .block).blockPulls.all fun p => p.2) ∧
  ∀ s : State, s.onBus = false → s.sclOe = false ∧ (s.hung = false → s.sdaOe = false)

/-! ### The decoder -/

/-- The three ranges of the decoder and the range of its values (R151). -/
def Obligations.DecodeByRanges : Prop :=
  ∀ v : Half,
    (v &&& 0x7FF = v ↔ v.toNat ≤ 0x7FF) ∧
    (v.toNat ≤ 0x7FF → decodeRaw v = v.toNat ∧ 0 ≤ decodeRaw v ∧ decodeRaw v ≤ 2047) ∧
    (0x800 ≤ v.toNat → v.toNat ≤ 0xFFF →
      decodeRaw v = v.toNat - 4096 ∧ -2048 ≤ decodeRaw v ∧ decodeRaw v ≤ -1) ∧
    (0x1000 ≤ v.toNat → decodeRaw v = v.toNat - 4096 ∧ 0 ≤ decodeRaw v ∧ decodeRaw v ≤ 61439)

/-- On words whose upper four bits are zero the decoder is 12-bit two's complement; on the others it is `v - 4096`, with no
bit discarded (R152, R153). -/
def Obligations.DecodeIsTwelveBitTwosComplement : Prop :=
  (∀ v : Half, v.toNat ≤ 0xFFF → decodeRaw v = sext12 (v.extractLsb' 0 12)) ∧
  (∀ v : Half, 0x1000 ≤ v.toNat → decodeRaw v = v.toNat - 4096) ∧
  decodeRaw 0x7FF = 2047 ∧ decodeRaw 0x800 = -2048 ∧ decodeRaw 0x1000 = 0 ∧ decodeRaw 0x1001 = 1 ∧
  decodeRaw 0xF800 = 59392 ∧ sext12 0x800 = -2048

/-- The value of a binary32 pattern as R156 gives it: `(−1)^s × 2^(expf−127) × (1 + frac/2^23)`. -/
def floatValue (w : Word) : Rat :=
  (if w.getLsbD 31 then -1 else 1) * (2 : Rat) ^ (((w.extractLsb' 23 8).toNat : Int) - 127) *
    (1 + ((w.extractLsb' 0 23).toNat : Rat) / 2 ^ 23)

/-- The float output (R156, R157): `f32(q)` is a normal number with value q/4 and exponent 125 to 140, zero is +0.0, two
values never share a pattern, and the examples. -/
def Obligations.FloatPatternsAreExact : Prop :=
  f32 0 = 0x00000000 ∧
  (∀ q : Int, InDecodeRange q → q ≠ 0 →
    floatValue (f32 q) = (q : Rat) / 4 ∧
    125 ≤ ((f32 q).extractLsb' 23 8).toNat ∧ ((f32 q).extractLsb' 23 8).toNat ≤ 140) ∧
  (∀ q r : Int, InDecodeRange q → InDecodeRange r → f32 q = f32 r → q = r) ∧
  f32 1 = 0x3E800000 ∧ f32 4 = 0x3F800000 ∧ f32 (-1) = 0xBE800000 ∧ f32 2047 = 0x43FFE000 ∧
  f32 (-2048) = 0xC4000000 ∧ f32 61439 = 0x466FFF00

/-- Byte order (R83-R85): the bus word has the first byte low, SWAP = 1 exchanges the bytes, and normalisation is exactly
that. -/
def Obligations.NormalisationSwapsBytes : Prop :=
  ∀ b0 b1 : Byte,
    (busWord b0 b1).toNat = b0.toNat + 256 * b1.toNat ∧
    norm false b0 b1 = busWord b0 b1 ∧ norm true b0 b1 = swap16 (busWord b0 b1) ∧
    (norm true b0 b1).toNat = b1.toNat + 256 * b0.toNat

/-! ### Statistics -/

/-- The extrema are exact (R190): attained by a pixel, and bounds of all. -/
def Obligations.ExtremaAreExact : Prop :=
  ∀ pix : Vector Pixel 64,
    (∃ i : Fin 64, decodeRaw pix[i].raw = (frameStats (decodedPixels pix)).minQ) ∧
    (∃ i : Fin 64, decodeRaw pix[i].raw = (frameStats (decodedPixels pix)).maxQ) ∧
    ∀ i : Fin 64, (frameStats (decodedPixels pix)).minQ ≤ decodeRaw pix[i].raw ∧
      decodeRaw pix[i].raw ≤ (frameStats (decodedPixels pix)).maxQ

/-- The sum is the exact sum and SUM_Q never overflows (R191). -/
def Obligations.SumNeverOverflows : Prop :=
  ∀ pix : Vector Pixel 64,
    (frameStats (decodedPixels pix)).sum = (List.ofFn fun i : Fin 64 => decodeRaw pix[i].raw).sum ∧
    -131072 ≤ (frameStats (decodedPixels pix)).sum ∧ (frameStats (decodedPixels pix)).sum ≤ 3932096 ∧
    (enc32 (frameStats (decodedPixels pix)).sum).toInt = (frameStats (decodedPixels pix)).sum

/-- The average is the nearest hundredth, a tie goes to the even one, ties are the sums with remainder 32, negative means
round symmetrically, and the examples (R192, R193). The tie rule is this spec's decision D10. -/
def Obligations.AverageRoundsHalfToEven : Prop :=
  ∀ S : Int,
    2 * (25 * S - 64 * averageC S).natAbs ≤ 64 ∧
    (2 * (25 * S - 64 * averageC S).natAbs = 64 → averageC S % 2 = 0) ∧
    (2 * (25 * S - 64 * averageC S).natAbs = 64 ↔ 25 * S % 64 = 32) ∧
    (25 * S % 64 = 32 ↔ S % 64 = 32) ∧
    averageC (-S) = -averageC S ∧
    averageC 32 = 12 ∧ averageC (-32) = -12 ∧ averageC 96 = 38

/-- Minimum, average and maximum are in order, `hi` lies between the average and the maximum, and `low` is never below
the average, though it can lie above the maximum (R199). -/
def Obligations.ThresholdsAreOrdered : Prop :=
  (∀ pix : Vector Pixel 64,
    let st := frameStats (decodedPixels pix)
    (st.minQ : Rat) / 4 ≤ (st.avgC : Rat) / 100 ∧ (st.avgC : Rat) / 100 ≤ (st.maxQ : Rat) / 4 ∧
    (st.avgC : Rat) / 100 ≤ (st.hiU : Rat) / 200 ∧ (st.hiU : Rat) / 200 ≤ (st.maxQ : Rat) / 4 ∧
    (st.lowU : Rat) / 200 =
      (st.avgC : Rat) / 100 + ((st.avgC : Rat) / 100 - (st.minQ : Rat) / 4) / 2 ∧
    (st.avgC : Rat) / 100 ≤ (st.lowU : Rat) / 200) ∧
  ∃ pix : Vector Pixel 64, 50 * (frameStats (decodedPixels pix)).maxQ < (frameStats (decodedPixels pix)).lowU

/-- The bands compare temperatures (R194, R195, R197): with the source's `hi = avg + (max - avg) / 2` and
`low = avg - (min - avg) / 2` in degrees, the first clause that matches wins. -/
def Obligations.BandsCompareTemperatures : Prop :=
  ∀ (qs : List Int) (q : Int),
    let st  := frameStats qs
    let avg := (st.avgC : Rat) / 100
    let hi  := avg + ((st.maxQ : Rat) / 4 - avg) / 2
    let low := avg - ((st.minQ : Rat) / 4 - avg) / 2
    bandOf st q =
      if q = st.maxQ then .hottest
      else if (q : Rat) / 4 ≥ hi then .warm
      else if q = st.minQ then .coldest
      else if (q : Rat) / 4 ≤ low then .cool
      else .neutral

/-- A frame of equal pixels (R201): all thresholds are the value and every band is HOTTEST; and every band of every frame
has a code of 0 to 4. -/
def Obligations.UniformFrameIsHottest : Prop :=
  (∀ (pix : Vector Pixel 64) (v : Half), (∀ i : Fin 64, pix[i].raw = v) →
    frameStats (decodedPixels pix) =
      { minQ := decodeRaw v, maxQ := decodeRaw v, sum := 64 * decodeRaw v, avgC := 25 * decodeRaw v
        hiU := 50 * decodeRaw v, lowU := 50 * decodeRaw v } ∧
    ∀ i : Fin 64, (bandPixels (frameStats (decodedPixels pix)) pix)[i] = ⟨v, 4⟩) ∧
  ∀ (st : FrameStats) (q : Int), (bandOf st q).code.toNat ≤ 4

/-- The statistics depend only on the multiset of the values (R202). -/
def Obligations.StatisticsIgnoreOrder : Prop :=
  ∀ qs rs : List Int, qs.Perm rs → frameStats qs = frameStats rs

/-! ### Rules of the whole machine -/

/-- Every step of every agent keeps the invariant of Sys2Proof/Safety.lean (R22, R23, R34, R173, R182, R183, R222);
its clause on `onBus` is log 25. -/
def Obligations.EveryStepKeepsTheInvariant : Prop :=
  ∀ s t : State, s.Inv → step s = .next t → t.Inv

/-- The invariant holds in every state a reset leaves, of every build and every environment. -/
def Obligations.ResetStatesMeetTheInvariant : Prop :=
  State.reset.IsReset ∧ ∀ s : State, s.IsReset → s.Inv

/-- Only the frame-completion step writes the statistics registers and FRAME_CNT, all of them at once (R44), short of
reset. -/
def Obligations.OnlyCompletionWritesStatistics : Prop :=
  ∀ s t : State, ¬ s.resetsNext → step s = .next t →
    (t.frameCnt = s.frameCnt ∧ t.minQ = s.minQ ∧ t.maxQ = s.maxQ ∧ t.sumQ = s.sumQ ∧ t.avgC = s.avgC ∧
      t.hiU = s.hiU ∧ t.lowU = s.lowU ∧ ∀ i : Fin 64, (t.pixel i).band = (s.pixel i).band) ∨
    (s.nextEvent = .sequencer ∧ s.seqStep = .stats ∧ (s.seqState = .frame ∨ s.seqState = .runFrame) ∧
      t.frameCnt = s.frameCnt + 1 ∧ t.FrameComplete ∧ t.frameValid = true ∧ t.done = true)

/-- A transaction is issued only as a step of a running command, at most one a step, to the configured address
(20_memory.md R70, R76), and never in place of a pending cancel (43_acquisition.md R178), but for the one in progress when
the cancel was requested (43_acquisition.md R180, R181); and only an event `busStart` puts one in progress, again as a step
of a running command with no cancel pending (log 25). -/
def Obligations.TransactionsComeFromRunningCommands : Prop :=
  ∀ s t : State, step s = .next t →
    (t.trace = s.trace ∨
      (s.nextEvent = .sequencer ∧ s.busy = true ∧ (s.cancelPend = false ∨ s.onBus = true) ∧ s.hung = false ∧
        s.rstN = true ∧
        ((∃ reg data res, s.NextWrite reg data ∧ t.trace = s.trace ++ [.write s.config.devAddr reg data res]) ∨
          ∃ reg res, s.NextRead reg ∧ t.trace = s.trace ++ [.read s.config.devAddr reg res]))) ∧
    (s.onBus = false → t.onBus = true →
      s.nextEvent = .busStart ∧ s.busy = true ∧ s.cancelPend = false ∧ s.hung = false ∧ s.rstN = true ∧
        t.trace = s.trace)

/-- INIT_DONE is set only by the SETTLE2 step of INIT, cleared by the start of every INIT and by reset, and by nothing
else (R143). -/
def Obligations.InitDoneFollowsInit : Prop :=
  ∀ s t : State, step s = .next t →
    (s.initDone = false → t.initDone = true →
      s.nextEvent = .sequencer ∧ s.seqState = .init ∧ s.seqStep = .settle2 ∧ t.seqState = .idle ∧ t.done = true) ∧
    (s.initDone = true → t.initDone = false →
      s.resetsNext ∨ s.nextEvent = .host ∧ s.nextLine = .write 2 0x00000004 ∧ t.seqState = .init) ∧
    (s.nextEvent = .host → s.nextLine = .write 2 0x00000004 → s.rstN = true → s.seqState = .idle →
      t.initDone = false) ∧
    (s.resetsNext → t.initDone = false)

/-- DONE is set only by the last step of a command (R230): a DECODE issued, a transfer, SETTLE2 or a frame's completion;
and it is sticky until the host writes 1 to STATUS bit 6, short of reset. That a transfer that succeeds with a cancel pending
sets no DONE is the model's reading (log 25) of R183, which the spec marks as its own inference: R122 to the letter sets it. -/
def Obligations.DoneMarksACompletedCommand : Prop :=
  ∀ s t : State, step s = .next t →
    (s.done = false → t.done = true →
      (s.nextEvent = .host ∧ s.seqState = .idle ∧ ∃ w v, s.nextLine = .write 2 w ∧ decodeWord w = .ok (.decode v) ∧
        t.raw = v) ∨
      (s.nextEvent = .sequencer ∧ s.cancelPend = false ∧
        (s.seqStep = .xfer ∧ t.seqState = .idle ∨ s.seqStep = .settle2 ∧ t.initDone = true ∨
          s.seqStep = .stats ∧ t.frameValid = true))) ∧
    (s.done = true → t.done = false →
      s.resetsNext ∨ s.nextEvent = .host ∧ ∃ w : Word, s.nextLine = .write 3 w ∧ w.getLsbD 6 = true)

/-! ### Assembler -/

/-- The pseudo-instructions (R109) and the operand ranges of WRBYTE, RDWORD, DECODE and RDPIX (R108, R109): each assembles to
the word the table gives, and an operand out of range assembles to nothing. -/
def Obligations.PseudoInstructionsExpand : Prop :=
  ((assembleCmd .setnormal).map encode = some 0x00000001) ∧
  ((assembleCmd .clrflags).map encode = some 0x000E0501) ∧
  ((assembleCmd .devreset).map encode = some 0x003F0101) ∧
  (∀ i : Nat, i ≤ 63 →
    (assembleCmd (.rdpix i)).map encode = some (BitVec.ofNat 32 (2 + (0x80 + 2 * i) * 256))) ∧
  (∀ i : Nat, 63 < i → assembleCmd (.rdpix i) = none) ∧
  (∀ r d : Nat, (assembleCmd (.wrbyte r d)).map encode =
    if r ≤ 0xFF ∧ d ≤ 0xFF then some (BitVec.ofNat 32 (1 + 256 * r + 65536 * d)) else none) ∧
  (∀ r : Nat, (assembleCmd (.rdword r)).map encode =
    if r ≤ 0xFF then some (BitVec.ofNat 32 (2 + 256 * r)) else none) ∧
  (∀ v : Nat, (assembleCmd (.decode v)).map encode =
    if v ≤ 0xFFFF then some (BitVec.ofNat 32 (3 + 65536 * v)) else none)
end

