-- ==== Sys2Proof/Laws/State.lean ====
section
/-! SUPPORT. One lemma for each field of State under each shared update of the block: what the update writes and what it
leaves as it was. -/

namespace Sys2Proof.Machine


/-! ### raiseCmdErr -/

@[simp] theorem raiseCmdErr_cfg (c : CmdCause) (s : State) : (raiseCmdErr c s).cfg = s.cfg := rfl
@[simp] theorem raiseCmdErr_seqState (c : CmdCause) (s : State) : (raiseCmdErr c s).seqState = s.seqState := rfl
@[simp] theorem raiseCmdErr_seqStep (c : CmdCause) (s : State) : (raiseCmdErr c s).seqStep = s.seqStep := rfl
@[simp] theorem raiseCmdErr_k (c : CmdCause) (s : State) : (raiseCmdErr c s).k = s.k := rfl
@[simp] theorem raiseCmdErr_cancelPend (c : CmdCause) (s : State) : (raiseCmdErr c s).cancelPend = s.cancelPend := rfl
@[simp] theorem raiseCmdErr_cancelPrev (c : CmdCause) (s : State) : (raiseCmdErr c s).cancelPrev = s.cancelPrev := rfl
@[simp] theorem raiseCmdErr_waitUntil (c : CmdCause) (s : State) : (raiseCmdErr c s).waitUntil = s.waitUntil := rfl
@[simp] theorem raiseCmdErr_latch (c : CmdCause) (s : State) : (raiseCmdErr c s).latch = s.latch := rfl
@[simp] theorem raiseCmdErr_config (c : CmdCause) (s : State) : (raiseCmdErr c s).config = s.config := rfl
@[simp] theorem raiseCmdErr_initDone (c : CmdCause) (s : State) : (raiseCmdErr c s).initDone = s.initDone := rfl
@[simp] theorem raiseCmdErr_frameValid (c : CmdCause) (s : State) : (raiseCmdErr c s).frameValid = s.frameValid := rfl
@[simp] theorem raiseCmdErr_done (c : CmdCause) (s : State) : (raiseCmdErr c s).done = s.done := rfl
@[simp] theorem raiseCmdErr_cancelled (c : CmdCause) (s : State) : (raiseCmdErr c s).cancelled = s.cancelled := rfl
@[simp] theorem raiseCmdErr_cmdErr (c : CmdCause) (s : State) : (raiseCmdErr c s).cmdErr = true := rfl
@[simp] theorem raiseCmdErr_fatal (c : CmdCause) (s : State) : (raiseCmdErr c s).fatal = s.fatal := rfl
@[simp] theorem raiseCmdErr_errCode (c : CmdCause) (s : State) : (raiseCmdErr c s).errCode = s.errCode := rfl
@[simp] theorem raiseCmdErr_cmdCause (c : CmdCause) (s : State) :
    (raiseCmdErr c s).cmdCause = if s.cmdErr then s.cmdCause else c := rfl
@[simp] theorem raiseCmdErr_errInfo (c : CmdCause) (s : State) : (raiseCmdErr c s).errInfo = s.errInfo := rfl
@[simp] theorem raiseCmdErr_raw (c : CmdCause) (s : State) : (raiseCmdErr c s).raw = s.raw := rfl
@[simp] theorem raiseCmdErr_frameCnt (c : CmdCause) (s : State) : (raiseCmdErr c s).frameCnt = s.frameCnt := rfl
@[simp] theorem raiseCmdErr_minQ (c : CmdCause) (s : State) : (raiseCmdErr c s).minQ = s.minQ := rfl
@[simp] theorem raiseCmdErr_maxQ (c : CmdCause) (s : State) : (raiseCmdErr c s).maxQ = s.maxQ := rfl
@[simp] theorem raiseCmdErr_sumQ (c : CmdCause) (s : State) : (raiseCmdErr c s).sumQ = s.sumQ := rfl
@[simp] theorem raiseCmdErr_avgC (c : CmdCause) (s : State) : (raiseCmdErr c s).avgC = s.avgC := rfl
@[simp] theorem raiseCmdErr_hiU (c : CmdCause) (s : State) : (raiseCmdErr c s).hiU = s.hiU := rfl
@[simp] theorem raiseCmdErr_lowU (c : CmdCause) (s : State) : (raiseCmdErr c s).lowU = s.lowU := rfl
@[simp] theorem raiseCmdErr_pix (c : CmdCause) (s : State) : (raiseCmdErr c s).pix = s.pix := rfl
@[simp] theorem raiseCmdErr_rstN (c : CmdCause) (s : State) : (raiseCmdErr c s).rstN = s.rstN := rfl
@[simp] theorem raiseCmdErr_now (c : CmdCause) (s : State) : (raiseCmdErr c s).now = s.now := rfl
@[simp] theorem raiseCmdErr_onBus (c : CmdCause) (s : State) : (raiseCmdErr c s).onBus = s.onBus := rfl
@[simp] theorem raiseCmdErr_hung (c : CmdCause) (s : State) : (raiseCmdErr c s).hung = s.hung := rfl
@[simp] theorem raiseCmdErr_hRdata (c : CmdCause) (s : State) : (raiseCmdErr c s).hRdata = s.hRdata := rfl
@[simp] theorem raiseCmdErr_trace (c : CmdCause) (s : State) : (raiseCmdErr c s).trace = s.trace := rfl
@[simp] theorem raiseCmdErr_schedule (c : CmdCause) (s : State) : (raiseCmdErr c s).schedule = s.schedule := rfl
@[simp] theorem raiseCmdErr_program (c : CmdCause) (s : State) : (raiseCmdErr c s).program = s.program := rfl
@[simp] theorem raiseCmdErr_writeReplies (c : CmdCause) (s : State) :
    (raiseCmdErr c s).writeReplies = s.writeReplies := rfl
@[simp] theorem raiseCmdErr_readReplies (c : CmdCause) (s : State) :
    (raiseCmdErr c s).readReplies = s.readReplies := rfl
@[simp] theorem raiseCmdErr_draws (c : CmdCause) (s : State) : (raiseCmdErr c s).draws = s.draws := rfl

/-! ### raiseFatal -/

@[simp] theorem raiseFatal_cfg (c : ErrCode) (r : Byte) (w : Bool) (s : State) :
    (raiseFatal c r w s).cfg = s.cfg := rfl
@[simp] theorem raiseFatal_seqState (c : ErrCode) (r : Byte) (w : Bool) (s : State) :
    (raiseFatal c r w s).seqState = .halted := rfl
@[simp] theorem raiseFatal_seqStep (c : ErrCode) (r : Byte) (w : Bool) (s : State) :
    (raiseFatal c r w s).seqStep = .none := rfl
@[simp] theorem raiseFatal_k (c : ErrCode) (r : Byte) (w : Bool) (s : State) : (raiseFatal c r w s).k = s.k := rfl
@[simp] theorem raiseFatal_cancelPend (c : ErrCode) (r : Byte) (w : Bool) (s : State) :
    (raiseFatal c r w s).cancelPend = false := rfl
@[simp] theorem raiseFatal_cancelPrev (c : ErrCode) (r : Byte) (w : Bool) (s : State) :
    (raiseFatal c r w s).cancelPrev = s.cancelPrev := rfl
@[simp] theorem raiseFatal_waitUntil (c : ErrCode) (r : Byte) (w : Bool) (s : State) :
    (raiseFatal c r w s).waitUntil = s.waitUntil := rfl
@[simp] theorem raiseFatal_latch (c : ErrCode) (r : Byte) (w : Bool) (s : State) :
    (raiseFatal c r w s).latch = s.latch := rfl
@[simp] theorem raiseFatal_config (c : ErrCode) (r : Byte) (w : Bool) (s : State) :
    (raiseFatal c r w s).config = s.config := rfl
@[simp] theorem raiseFatal_initDone (c : ErrCode) (r : Byte) (w : Bool) (s : State) :
    (raiseFatal c r w s).initDone = s.initDone := rfl
@[simp] theorem raiseFatal_frameValid (c : ErrCode) (r : Byte) (w : Bool) (s : State) :
    (raiseFatal c r w s).frameValid = s.frameValid := rfl
@[simp] theorem raiseFatal_done (c : ErrCode) (r : Byte) (w : Bool) (s : State) :
    (raiseFatal c r w s).done = s.done := rfl
@[simp] theorem raiseFatal_cancelled (c : ErrCode) (r : Byte) (w : Bool) (s : State) :
    (raiseFatal c r w s).cancelled = s.cancelled := rfl
@[simp] theorem raiseFatal_cmdErr (c : ErrCode) (r : Byte) (w : Bool) (s : State) :
    (raiseFatal c r w s).cmdErr = s.cmdErr := rfl
@[simp] theorem raiseFatal_fatal (c : ErrCode) (r : Byte) (w : Bool) (s : State) :
    (raiseFatal c r w s).fatal = true := rfl
@[simp] theorem raiseFatal_errCode (c : ErrCode) (r : Byte) (w : Bool) (s : State) :
    (raiseFatal c r w s).errCode = c := rfl
@[simp] theorem raiseFatal_cmdCause (c : ErrCode) (r : Byte) (w : Bool) (s : State) :
    (raiseFatal c r w s).cmdCause = s.cmdCause := rfl
@[simp] theorem raiseFatal_errInfo (c : ErrCode) (r : Byte) (w : Bool) (s : State) :
    (raiseFatal c r w s).errInfo = ⟨r, w, s.latch.op⟩ := rfl
@[simp] theorem raiseFatal_raw (c : ErrCode) (r : Byte) (w : Bool) (s : State) :
    (raiseFatal c r w s).raw = s.raw := rfl
@[simp] theorem raiseFatal_frameCnt (c : ErrCode) (r : Byte) (w : Bool) (s : State) :
    (raiseFatal c r w s).frameCnt = s.frameCnt := rfl
@[simp] theorem raiseFatal_minQ (c : ErrCode) (r : Byte) (w : Bool) (s : State) :
    (raiseFatal c r w s).minQ = s.minQ := rfl
@[simp] theorem raiseFatal_maxQ (c : ErrCode) (r : Byte) (w : Bool) (s : State) :
    (raiseFatal c r w s).maxQ = s.maxQ := rfl
@[simp] theorem raiseFatal_sumQ (c : ErrCode) (r : Byte) (w : Bool) (s : State) :
    (raiseFatal c r w s).sumQ = s.sumQ := rfl
@[simp] theorem raiseFatal_avgC (c : ErrCode) (r : Byte) (w : Bool) (s : State) :
    (raiseFatal c r w s).avgC = s.avgC := rfl
@[simp] theorem raiseFatal_hiU (c : ErrCode) (r : Byte) (w : Bool) (s : State) :
    (raiseFatal c r w s).hiU = s.hiU := rfl
@[simp] theorem raiseFatal_lowU (c : ErrCode) (r : Byte) (w : Bool) (s : State) :
    (raiseFatal c r w s).lowU = s.lowU := rfl
@[simp] theorem raiseFatal_pix (c : ErrCode) (r : Byte) (w : Bool) (s : State) :
    (raiseFatal c r w s).pix = s.pix := rfl
@[simp] theorem raiseFatal_rstN (c : ErrCode) (r : Byte) (w : Bool) (s : State) :
    (raiseFatal c r w s).rstN = s.rstN := rfl
@[simp] theorem raiseFatal_now (c : ErrCode) (r : Byte) (w : Bool) (s : State) :
    (raiseFatal c r w s).now = s.now := rfl
@[simp] theorem raiseFatal_onBus (c : ErrCode) (r : Byte) (w : Bool) (s : State) :
    (raiseFatal c r w s).onBus = s.onBus := rfl
@[simp] theorem raiseFatal_hung (c : ErrCode) (r : Byte) (w : Bool) (s : State) :
    (raiseFatal c r w s).hung = s.hung := rfl
@[simp] theorem raiseFatal_hRdata (c : ErrCode) (r : Byte) (w : Bool) (s : State) :
    (raiseFatal c r w s).hRdata = s.hRdata := rfl
@[simp] theorem raiseFatal_trace (c : ErrCode) (r : Byte) (w : Bool) (s : State) :
    (raiseFatal c r w s).trace = s.trace := rfl
@[simp] theorem raiseFatal_schedule (c : ErrCode) (r : Byte) (w : Bool) (s : State) :
    (raiseFatal c r w s).schedule = s.schedule := rfl
@[simp] theorem raiseFatal_program (c : ErrCode) (r : Byte) (w : Bool) (s : State) :
    (raiseFatal c r w s).program = s.program := rfl
@[simp] theorem raiseFatal_writeReplies (c : ErrCode) (r : Byte) (w : Bool) (s : State) :
    (raiseFatal c r w s).writeReplies = s.writeReplies := rfl
@[simp] theorem raiseFatal_readReplies (c : ErrCode) (r : Byte) (w : Bool) (s : State) :
    (raiseFatal c r w s).readReplies = s.readReplies := rfl
@[simp] theorem raiseFatal_draws (c : ErrCode) (r : Byte) (w : Bool) (s : State) :
    (raiseFatal c r w s).draws = s.draws := rfl

/-! ### cancelStep -/

@[simp] theorem cancelStep_cfg (s : State) : (cancelStep s).cfg = s.cfg := rfl
@[simp] theorem cancelStep_seqState (s : State) : (cancelStep s).seqState = .idle := rfl
@[simp] theorem cancelStep_seqStep (s : State) : (cancelStep s).seqStep = .none := rfl
@[simp] theorem cancelStep_k (s : State) : (cancelStep s).k = 0 := rfl
@[simp] theorem cancelStep_cancelPend (s : State) : (cancelStep s).cancelPend = false := rfl
@[simp] theorem cancelStep_cancelPrev (s : State) : (cancelStep s).cancelPrev = s.cancelPrev := rfl
@[simp] theorem cancelStep_waitUntil (s : State) : (cancelStep s).waitUntil = s.waitUntil := rfl
@[simp] theorem cancelStep_latch (s : State) : (cancelStep s).latch = s.latch := rfl
@[simp] theorem cancelStep_config (s : State) : (cancelStep s).config = s.config := rfl
@[simp] theorem cancelStep_initDone (s : State) : (cancelStep s).initDone = s.initDone := rfl
@[simp] theorem cancelStep_frameValid (s : State) : (cancelStep s).frameValid = s.frameValid := rfl
@[simp] theorem cancelStep_done (s : State) : (cancelStep s).done = s.done := rfl
@[simp] theorem cancelStep_cancelled (s : State) : (cancelStep s).cancelled = true := rfl
@[simp] theorem cancelStep_cmdErr (s : State) : (cancelStep s).cmdErr = s.cmdErr := rfl
@[simp] theorem cancelStep_fatal (s : State) : (cancelStep s).fatal = s.fatal := rfl
@[simp] theorem cancelStep_errCode (s : State) : (cancelStep s).errCode = s.errCode := rfl
@[simp] theorem cancelStep_cmdCause (s : State) : (cancelStep s).cmdCause = s.cmdCause := rfl
@[simp] theorem cancelStep_errInfo (s : State) : (cancelStep s).errInfo = s.errInfo := rfl
@[simp] theorem cancelStep_raw (s : State) : (cancelStep s).raw = s.raw := rfl
@[simp] theorem cancelStep_frameCnt (s : State) : (cancelStep s).frameCnt = s.frameCnt := rfl
@[simp] theorem cancelStep_minQ (s : State) : (cancelStep s).minQ = s.minQ := rfl
@[simp] theorem cancelStep_maxQ (s : State) : (cancelStep s).maxQ = s.maxQ := rfl
@[simp] theorem cancelStep_sumQ (s : State) : (cancelStep s).sumQ = s.sumQ := rfl
@[simp] theorem cancelStep_avgC (s : State) : (cancelStep s).avgC = s.avgC := rfl
@[simp] theorem cancelStep_hiU (s : State) : (cancelStep s).hiU = s.hiU := rfl
@[simp] theorem cancelStep_lowU (s : State) : (cancelStep s).lowU = s.lowU := rfl
@[simp] theorem cancelStep_pix (s : State) : (cancelStep s).pix = s.pix := rfl
@[simp] theorem cancelStep_rstN (s : State) : (cancelStep s).rstN = s.rstN := rfl
@[simp] theorem cancelStep_now (s : State) : (cancelStep s).now = s.now := rfl
@[simp] theorem cancelStep_onBus (s : State) : (cancelStep s).onBus = s.onBus := rfl
@[simp] theorem cancelStep_hung (s : State) : (cancelStep s).hung = s.hung := rfl
@[simp] theorem cancelStep_hRdata (s : State) : (cancelStep s).hRdata = s.hRdata := rfl
@[simp] theorem cancelStep_trace (s : State) : (cancelStep s).trace = s.trace := rfl
@[simp] theorem cancelStep_schedule (s : State) : (cancelStep s).schedule = s.schedule := rfl
@[simp] theorem cancelStep_program (s : State) : (cancelStep s).program = s.program := rfl
@[simp] theorem cancelStep_writeReplies (s : State) : (cancelStep s).writeReplies = s.writeReplies := rfl
@[simp] theorem cancelStep_readReplies (s : State) : (cancelStep s).readReplies = s.readReplies := rfl
@[simp] theorem cancelStep_draws (s : State) : (cancelStep s).draws = s.draws := rfl

/-! ### latchCommand -/

@[simp] theorem latchCommand_cfg (i : Instr) (s : State) : (latchCommand i s).cfg = s.cfg := rfl
@[simp] theorem latchCommand_seqState (i : Instr) (s : State) : (latchCommand i s).seqState = s.seqState := rfl
@[simp] theorem latchCommand_seqStep (i : Instr) (s : State) : (latchCommand i s).seqStep = s.seqStep := rfl
@[simp] theorem latchCommand_k (i : Instr) (s : State) : (latchCommand i s).k = s.k := rfl
@[simp] theorem latchCommand_cancelPend (i : Instr) (s : State) : (latchCommand i s).cancelPend = s.cancelPend := rfl
@[simp] theorem latchCommand_cancelPrev (i : Instr) (s : State) : (latchCommand i s).cancelPrev = s.cancelPrev := rfl
@[simp] theorem latchCommand_waitUntil (i : Instr) (s : State) : (latchCommand i s).waitUntil = s.waitUntil := rfl
@[simp] theorem latchCommand_latch (i : Instr) (s : State) : (latchCommand i s).latch = latchOf i := rfl
@[simp] theorem latchCommand_config (i : Instr) (s : State) : (latchCommand i s).config = s.config := rfl
@[simp] theorem latchCommand_initDone (i : Instr) (s : State) : (latchCommand i s).initDone = s.initDone := rfl
@[simp] theorem latchCommand_frameValid (i : Instr) (s : State) : (latchCommand i s).frameValid = s.frameValid := rfl
@[simp] theorem latchCommand_done (i : Instr) (s : State) : (latchCommand i s).done = s.done := rfl
@[simp] theorem latchCommand_cancelled (i : Instr) (s : State) : (latchCommand i s).cancelled = s.cancelled := rfl
@[simp] theorem latchCommand_cmdErr (i : Instr) (s : State) : (latchCommand i s).cmdErr = s.cmdErr := rfl
@[simp] theorem latchCommand_fatal (i : Instr) (s : State) : (latchCommand i s).fatal = s.fatal := rfl
@[simp] theorem latchCommand_errCode (i : Instr) (s : State) : (latchCommand i s).errCode = s.errCode := rfl
@[simp] theorem latchCommand_cmdCause (i : Instr) (s : State) : (latchCommand i s).cmdCause = s.cmdCause := rfl
@[simp] theorem latchCommand_errInfo (i : Instr) (s : State) : (latchCommand i s).errInfo = s.errInfo := rfl
@[simp] theorem latchCommand_raw (i : Instr) (s : State) : (latchCommand i s).raw = s.raw := rfl
@[simp] theorem latchCommand_frameCnt (i : Instr) (s : State) : (latchCommand i s).frameCnt = s.frameCnt := rfl
@[simp] theorem latchCommand_minQ (i : Instr) (s : State) : (latchCommand i s).minQ = s.minQ := rfl
@[simp] theorem latchCommand_maxQ (i : Instr) (s : State) : (latchCommand i s).maxQ = s.maxQ := rfl
@[simp] theorem latchCommand_sumQ (i : Instr) (s : State) : (latchCommand i s).sumQ = s.sumQ := rfl
@[simp] theorem latchCommand_avgC (i : Instr) (s : State) : (latchCommand i s).avgC = s.avgC := rfl
@[simp] theorem latchCommand_hiU (i : Instr) (s : State) : (latchCommand i s).hiU = s.hiU := rfl
@[simp] theorem latchCommand_lowU (i : Instr) (s : State) : (latchCommand i s).lowU = s.lowU := rfl
@[simp] theorem latchCommand_pix (i : Instr) (s : State) : (latchCommand i s).pix = s.pix := rfl
@[simp] theorem latchCommand_rstN (i : Instr) (s : State) : (latchCommand i s).rstN = s.rstN := rfl
@[simp] theorem latchCommand_now (i : Instr) (s : State) : (latchCommand i s).now = s.now := rfl
@[simp] theorem latchCommand_onBus (i : Instr) (s : State) : (latchCommand i s).onBus = s.onBus := rfl
@[simp] theorem latchCommand_hung (i : Instr) (s : State) : (latchCommand i s).hung = s.hung := rfl
@[simp] theorem latchCommand_hRdata (i : Instr) (s : State) : (latchCommand i s).hRdata = s.hRdata := rfl
@[simp] theorem latchCommand_trace (i : Instr) (s : State) : (latchCommand i s).trace = s.trace := rfl
@[simp] theorem latchCommand_schedule (i : Instr) (s : State) : (latchCommand i s).schedule = s.schedule := rfl
@[simp] theorem latchCommand_program (i : Instr) (s : State) : (latchCommand i s).program = s.program := rfl
@[simp] theorem latchCommand_writeReplies (i : Instr) (s : State) :
    (latchCommand i s).writeReplies = s.writeReplies := rfl
@[simp] theorem latchCommand_readReplies (i : Instr) (s : State) :
    (latchCommand i s).readReplies = s.readReplies := rfl
@[simp] theorem latchCommand_draws (i : Instr) (s : State) : (latchCommand i s).draws = s.draws := rfl

/-! ### storePixel -/

@[simp] theorem storePixel_cfg (b0 b1 : Byte) (s : State) : (storePixel b0 b1 s).cfg = s.cfg := rfl
@[simp] theorem storePixel_seqState (b0 b1 : Byte) (s : State) : (storePixel b0 b1 s).seqState = s.seqState := rfl
@[simp] theorem storePixel_seqStep (b0 b1 : Byte) (s : State) :
    (storePixel b0 b1 s).seqStep = if s.k + 1 = 64 then .stats else .read := rfl
@[simp] theorem storePixel_k (b0 b1 : Byte) (s : State) : (storePixel b0 b1 s).k = s.k + 1 := rfl
@[simp] theorem storePixel_cancelPend (b0 b1 : Byte) (s : State) :
    (storePixel b0 b1 s).cancelPend = s.cancelPend := rfl
@[simp] theorem storePixel_cancelPrev (b0 b1 : Byte) (s : State) :
    (storePixel b0 b1 s).cancelPrev = s.cancelPrev := rfl
@[simp] theorem storePixel_waitUntil (b0 b1 : Byte) (s : State) : (storePixel b0 b1 s).waitUntil = s.waitUntil := rfl
@[simp] theorem storePixel_latch (b0 b1 : Byte) (s : State) : (storePixel b0 b1 s).latch = s.latch := rfl
@[simp] theorem storePixel_config (b0 b1 : Byte) (s : State) : (storePixel b0 b1 s).config = s.config := rfl
@[simp] theorem storePixel_initDone (b0 b1 : Byte) (s : State) : (storePixel b0 b1 s).initDone = s.initDone := rfl
@[simp] theorem storePixel_frameValid (b0 b1 : Byte) (s : State) :
    (storePixel b0 b1 s).frameValid = s.frameValid := rfl
@[simp] theorem storePixel_done (b0 b1 : Byte) (s : State) : (storePixel b0 b1 s).done = s.done := rfl
@[simp] theorem storePixel_cancelled (b0 b1 : Byte) (s : State) : (storePixel b0 b1 s).cancelled = s.cancelled := rfl
@[simp] theorem storePixel_cmdErr (b0 b1 : Byte) (s : State) : (storePixel b0 b1 s).cmdErr = s.cmdErr := rfl
@[simp] theorem storePixel_fatal (b0 b1 : Byte) (s : State) : (storePixel b0 b1 s).fatal = s.fatal := rfl
@[simp] theorem storePixel_errCode (b0 b1 : Byte) (s : State) : (storePixel b0 b1 s).errCode = s.errCode := rfl
@[simp] theorem storePixel_cmdCause (b0 b1 : Byte) (s : State) : (storePixel b0 b1 s).cmdCause = s.cmdCause := rfl
@[simp] theorem storePixel_errInfo (b0 b1 : Byte) (s : State) : (storePixel b0 b1 s).errInfo = s.errInfo := rfl
@[simp] theorem storePixel_raw (b0 b1 : Byte) (s : State) : (storePixel b0 b1 s).raw = s.raw := rfl
@[simp] theorem storePixel_frameCnt (b0 b1 : Byte) (s : State) : (storePixel b0 b1 s).frameCnt = s.frameCnt := rfl
@[simp] theorem storePixel_minQ (b0 b1 : Byte) (s : State) : (storePixel b0 b1 s).minQ = s.minQ := rfl
@[simp] theorem storePixel_maxQ (b0 b1 : Byte) (s : State) : (storePixel b0 b1 s).maxQ = s.maxQ := rfl
@[simp] theorem storePixel_sumQ (b0 b1 : Byte) (s : State) : (storePixel b0 b1 s).sumQ = s.sumQ := rfl
@[simp] theorem storePixel_avgC (b0 b1 : Byte) (s : State) : (storePixel b0 b1 s).avgC = s.avgC := rfl
@[simp] theorem storePixel_hiU (b0 b1 : Byte) (s : State) : (storePixel b0 b1 s).hiU = s.hiU := rfl
@[simp] theorem storePixel_lowU (b0 b1 : Byte) (s : State) : (storePixel b0 b1 s).lowU = s.lowU := rfl
@[simp] theorem storePixel_pix (b0 b1 : Byte) (s : State) :
    (storePixel b0 b1 s).pix = setRaw s.k (norm s.config.swap b0 b1) s.pix := rfl
@[simp] theorem storePixel_rstN (b0 b1 : Byte) (s : State) : (storePixel b0 b1 s).rstN = s.rstN := rfl
@[simp] theorem storePixel_now (b0 b1 : Byte) (s : State) : (storePixel b0 b1 s).now = s.now := rfl
@[simp] theorem storePixel_onBus (b0 b1 : Byte) (s : State) : (storePixel b0 b1 s).onBus = s.onBus := rfl
@[simp] theorem storePixel_hung (b0 b1 : Byte) (s : State) : (storePixel b0 b1 s).hung = s.hung := rfl
@[simp] theorem storePixel_hRdata (b0 b1 : Byte) (s : State) : (storePixel b0 b1 s).hRdata = s.hRdata := rfl
@[simp] theorem storePixel_trace (b0 b1 : Byte) (s : State) : (storePixel b0 b1 s).trace = s.trace := rfl
@[simp] theorem storePixel_schedule (b0 b1 : Byte) (s : State) : (storePixel b0 b1 s).schedule = s.schedule := rfl
@[simp] theorem storePixel_program (b0 b1 : Byte) (s : State) : (storePixel b0 b1 s).program = s.program := rfl
@[simp] theorem storePixel_writeReplies (b0 b1 : Byte) (s : State) :
    (storePixel b0 b1 s).writeReplies = s.writeReplies := rfl
@[simp] theorem storePixel_readReplies (b0 b1 : Byte) (s : State) :
    (storePixel b0 b1 s).readReplies = s.readReplies := rfl
@[simp] theorem storePixel_draws (b0 b1 : Byte) (s : State) : (storePixel b0 b1 s).draws = s.draws := rfl

/-! ### completeFrame -/

@[simp] theorem completeFrame_cfg (s : State) : (completeFrame s).cfg = s.cfg := rfl
@[simp] theorem completeFrame_seqState (s : State) :
    (completeFrame s).seqState = if s.seqState = .runFrame then .runWait else .idle := rfl
@[simp] theorem completeFrame_seqStep (s : State) :
    (completeFrame s).seqStep = if s.seqState = .runFrame then .wait else s.seqStep := rfl
@[simp] theorem completeFrame_k (s : State) : (completeFrame s).k = s.k := rfl
@[simp] theorem completeFrame_cancelPend (s : State) : (completeFrame s).cancelPend = s.cancelPend := rfl
@[simp] theorem completeFrame_cancelPrev (s : State) : (completeFrame s).cancelPrev = s.cancelPrev := rfl
@[simp] theorem completeFrame_waitUntil (s : State) :
    (completeFrame s).waitUntil = if s.seqState = .runFrame then s.now + s.cfg.frameInterval else s.waitUntil := rfl
@[simp] theorem completeFrame_latch (s : State) : (completeFrame s).latch = s.latch := rfl
@[simp] theorem completeFrame_config (s : State) : (completeFrame s).config = s.config := rfl
@[simp] theorem completeFrame_initDone (s : State) : (completeFrame s).initDone = s.initDone := rfl
@[simp] theorem completeFrame_frameValid (s : State) : (completeFrame s).frameValid = true := rfl
@[simp] theorem completeFrame_done (s : State) : (completeFrame s).done = true := rfl
@[simp] theorem completeFrame_cancelled (s : State) : (completeFrame s).cancelled = s.cancelled := rfl
@[simp] theorem completeFrame_cmdErr (s : State) : (completeFrame s).cmdErr = s.cmdErr := rfl
@[simp] theorem completeFrame_fatal (s : State) : (completeFrame s).fatal = s.fatal := rfl
@[simp] theorem completeFrame_errCode (s : State) : (completeFrame s).errCode = s.errCode := rfl
@[simp] theorem completeFrame_cmdCause (s : State) : (completeFrame s).cmdCause = s.cmdCause := rfl
@[simp] theorem completeFrame_errInfo (s : State) : (completeFrame s).errInfo = s.errInfo := rfl
@[simp] theorem completeFrame_raw (s : State) : (completeFrame s).raw = s.raw := rfl
@[simp] theorem completeFrame_frameCnt (s : State) : (completeFrame s).frameCnt = s.frameCnt + 1 := rfl
@[simp] theorem completeFrame_minQ (s : State) : (completeFrame s).minQ = enc32 s.stats.minQ := rfl
@[simp] theorem completeFrame_maxQ (s : State) : (completeFrame s).maxQ = enc32 s.stats.maxQ := rfl
@[simp] theorem completeFrame_sumQ (s : State) : (completeFrame s).sumQ = enc32 s.stats.sum := rfl
@[simp] theorem completeFrame_avgC (s : State) : (completeFrame s).avgC = enc32 s.stats.avgC := rfl
@[simp] theorem completeFrame_hiU (s : State) : (completeFrame s).hiU = enc32 s.stats.hiU := rfl
@[simp] theorem completeFrame_lowU (s : State) : (completeFrame s).lowU = enc32 s.stats.lowU := rfl
@[simp] theorem completeFrame_pix (s : State) : (completeFrame s).pix = bandPixels s.stats s.pix := rfl
@[simp] theorem completeFrame_rstN (s : State) : (completeFrame s).rstN = s.rstN := rfl
@[simp] theorem completeFrame_now (s : State) : (completeFrame s).now = s.now := rfl
@[simp] theorem completeFrame_onBus (s : State) : (completeFrame s).onBus = s.onBus := rfl
@[simp] theorem completeFrame_hung (s : State) : (completeFrame s).hung = s.hung := rfl
@[simp] theorem completeFrame_hRdata (s : State) : (completeFrame s).hRdata = s.hRdata := rfl
@[simp] theorem completeFrame_trace (s : State) : (completeFrame s).trace = s.trace := rfl
@[simp] theorem completeFrame_schedule (s : State) : (completeFrame s).schedule = s.schedule := rfl
@[simp] theorem completeFrame_program (s : State) : (completeFrame s).program = s.program := rfl
@[simp] theorem completeFrame_writeReplies (s : State) : (completeFrame s).writeReplies = s.writeReplies := rfl
@[simp] theorem completeFrame_readReplies (s : State) : (completeFrame s).readReplies = s.readReplies := rfl
@[simp] theorem completeFrame_draws (s : State) : (completeFrame s).draws = s.draws := rfl

/-! ### endTransfer -/

@[simp] theorem endTransfer_cfg (s : State) : (endTransfer s).cfg = s.cfg := by
  cases hc : s.cancelPend <;> simp [endTransfer, hc]
@[simp] theorem endTransfer_seqState (s : State) :
    (endTransfer s).seqState = if s.cancelPend then s.seqState else .idle := by
  cases hc : s.cancelPend <;> simp [endTransfer, hc]
@[simp] theorem endTransfer_seqStep (s : State) : (endTransfer s).seqStep = s.seqStep := by
  cases hc : s.cancelPend <;> simp [endTransfer, hc]
@[simp] theorem endTransfer_k (s : State) : (endTransfer s).k = s.k := by
  cases hc : s.cancelPend <;> simp [endTransfer, hc]
@[simp] theorem endTransfer_cancelPend (s : State) : (endTransfer s).cancelPend = s.cancelPend := by
  cases hc : s.cancelPend <;> simp [endTransfer, hc]
@[simp] theorem endTransfer_cancelPrev (s : State) : (endTransfer s).cancelPrev = s.cancelPrev := by
  cases hc : s.cancelPend <;> simp [endTransfer, hc]
@[simp] theorem endTransfer_waitUntil (s : State) : (endTransfer s).waitUntil = s.waitUntil := by
  cases hc : s.cancelPend <;> simp [endTransfer, hc]
@[simp] theorem endTransfer_latch (s : State) : (endTransfer s).latch = s.latch := by
  cases hc : s.cancelPend <;> simp [endTransfer, hc]
@[simp] theorem endTransfer_config (s : State) : (endTransfer s).config = s.config := by
  cases hc : s.cancelPend <;> simp [endTransfer, hc]
@[simp] theorem endTransfer_initDone (s : State) : (endTransfer s).initDone = s.initDone := by
  cases hc : s.cancelPend <;> simp [endTransfer, hc]
@[simp] theorem endTransfer_frameValid (s : State) : (endTransfer s).frameValid = s.frameValid := by
  cases hc : s.cancelPend <;> simp [endTransfer, hc]
@[simp] theorem endTransfer_done (s : State) : (endTransfer s).done = s.done || !s.cancelPend := by
  cases hc : s.cancelPend <;> simp [endTransfer, hc]
@[simp] theorem endTransfer_cancelled (s : State) : (endTransfer s).cancelled = s.cancelled := by
  cases hc : s.cancelPend <;> simp [endTransfer, hc]
@[simp] theorem endTransfer_cmdErr (s : State) : (endTransfer s).cmdErr = s.cmdErr := by
  cases hc : s.cancelPend <;> simp [endTransfer, hc]
@[simp] theorem endTransfer_fatal (s : State) : (endTransfer s).fatal = s.fatal := by
  cases hc : s.cancelPend <;> simp [endTransfer, hc]
@[simp] theorem endTransfer_errCode (s : State) : (endTransfer s).errCode = s.errCode := by
  cases hc : s.cancelPend <;> simp [endTransfer, hc]
@[simp] theorem endTransfer_cmdCause (s : State) : (endTransfer s).cmdCause = s.cmdCause := by
  cases hc : s.cancelPend <;> simp [endTransfer, hc]
@[simp] theorem endTransfer_errInfo (s : State) : (endTransfer s).errInfo = s.errInfo := by
  cases hc : s.cancelPend <;> simp [endTransfer, hc]
@[simp] theorem endTransfer_raw (s : State) : (endTransfer s).raw = s.raw := by
  cases hc : s.cancelPend <;> simp [endTransfer, hc]
@[simp] theorem endTransfer_frameCnt (s : State) : (endTransfer s).frameCnt = s.frameCnt := by
  cases hc : s.cancelPend <;> simp [endTransfer, hc]
@[simp] theorem endTransfer_minQ (s : State) : (endTransfer s).minQ = s.minQ := by
  cases hc : s.cancelPend <;> simp [endTransfer, hc]
@[simp] theorem endTransfer_maxQ (s : State) : (endTransfer s).maxQ = s.maxQ := by
  cases hc : s.cancelPend <;> simp [endTransfer, hc]
@[simp] theorem endTransfer_sumQ (s : State) : (endTransfer s).sumQ = s.sumQ := by
  cases hc : s.cancelPend <;> simp [endTransfer, hc]
@[simp] theorem endTransfer_avgC (s : State) : (endTransfer s).avgC = s.avgC := by
  cases hc : s.cancelPend <;> simp [endTransfer, hc]
@[simp] theorem endTransfer_hiU (s : State) : (endTransfer s).hiU = s.hiU := by
  cases hc : s.cancelPend <;> simp [endTransfer, hc]
@[simp] theorem endTransfer_lowU (s : State) : (endTransfer s).lowU = s.lowU := by
  cases hc : s.cancelPend <;> simp [endTransfer, hc]
@[simp] theorem endTransfer_pix (s : State) : (endTransfer s).pix = s.pix := by
  cases hc : s.cancelPend <;> simp [endTransfer, hc]
@[simp] theorem endTransfer_rstN (s : State) : (endTransfer s).rstN = s.rstN := by
  cases hc : s.cancelPend <;> simp [endTransfer, hc]
@[simp] theorem endTransfer_now (s : State) : (endTransfer s).now = s.now := by
  cases hc : s.cancelPend <;> simp [endTransfer, hc]
@[simp] theorem endTransfer_onBus (s : State) : (endTransfer s).onBus = s.onBus := by
  cases hc : s.cancelPend <;> simp [endTransfer, hc]
@[simp] theorem endTransfer_hung (s : State) : (endTransfer s).hung = s.hung := by
  cases hc : s.cancelPend <;> simp [endTransfer, hc]
@[simp] theorem endTransfer_hRdata (s : State) : (endTransfer s).hRdata = s.hRdata := by
  cases hc : s.cancelPend <;> simp [endTransfer, hc]
@[simp] theorem endTransfer_trace (s : State) : (endTransfer s).trace = s.trace := by
  cases hc : s.cancelPend <;> simp [endTransfer, hc]
@[simp] theorem endTransfer_schedule (s : State) : (endTransfer s).schedule = s.schedule := by
  cases hc : s.cancelPend <;> simp [endTransfer, hc]
@[simp] theorem endTransfer_program (s : State) : (endTransfer s).program = s.program := by
  cases hc : s.cancelPend <;> simp [endTransfer, hc]
@[simp] theorem endTransfer_writeReplies (s : State) : (endTransfer s).writeReplies = s.writeReplies := by
  cases hc : s.cancelPend <;> simp [endTransfer, hc]
@[simp] theorem endTransfer_readReplies (s : State) : (endTransfer s).readReplies = s.readReplies := by
  cases hc : s.cancelPend <;> simp [endTransfer, hc]
@[simp] theorem endTransfer_draws (s : State) : (endTransfer s).draws = s.draws := by
  cases hc : s.cancelPend <;> simp [endTransfer, hc]

/-! ### busStart -/

@[simp] theorem busStart_cfg (s : State) : (busStart s).cfg = s.cfg := by
  unfold busStart
  split <;> simp_all
@[simp] theorem busStart_seqState (s : State) : (busStart s).seqState = s.seqState := by
  unfold busStart
  split <;> simp_all
@[simp] theorem busStart_seqStep (s : State) : (busStart s).seqStep = s.seqStep := by
  unfold busStart
  split <;> simp_all
@[simp] theorem busStart_k (s : State) : (busStart s).k = s.k := by
  unfold busStart
  split <;> simp_all
@[simp] theorem busStart_cancelPend (s : State) : (busStart s).cancelPend = s.cancelPend := by
  unfold busStart
  split <;> simp_all
@[simp] theorem busStart_cancelPrev (s : State) : (busStart s).cancelPrev = s.cancelPrev := by
  unfold busStart
  split <;> simp_all
@[simp] theorem busStart_waitUntil (s : State) : (busStart s).waitUntil = s.waitUntil := by
  unfold busStart
  split <;> simp_all
@[simp] theorem busStart_latch (s : State) : (busStart s).latch = s.latch := by
  unfold busStart
  split <;> simp_all
@[simp] theorem busStart_config (s : State) : (busStart s).config = s.config := by
  unfold busStart
  split <;> simp_all
@[simp] theorem busStart_initDone (s : State) : (busStart s).initDone = s.initDone := by
  unfold busStart
  split <;> simp_all
@[simp] theorem busStart_frameValid (s : State) : (busStart s).frameValid = s.frameValid := by
  unfold busStart
  split <;> simp_all
@[simp] theorem busStart_done (s : State) : (busStart s).done = s.done := by
  unfold busStart
  split <;> simp_all
@[simp] theorem busStart_cancelled (s : State) : (busStart s).cancelled = s.cancelled := by
  unfold busStart
  split <;> simp_all
@[simp] theorem busStart_cmdErr (s : State) : (busStart s).cmdErr = s.cmdErr := by
  unfold busStart
  split <;> simp_all
@[simp] theorem busStart_fatal (s : State) : (busStart s).fatal = s.fatal := by
  unfold busStart
  split <;> simp_all
@[simp] theorem busStart_errCode (s : State) : (busStart s).errCode = s.errCode := by
  unfold busStart
  split <;> simp_all
@[simp] theorem busStart_cmdCause (s : State) : (busStart s).cmdCause = s.cmdCause := by
  unfold busStart
  split <;> simp_all
@[simp] theorem busStart_errInfo (s : State) : (busStart s).errInfo = s.errInfo := by
  unfold busStart
  split <;> simp_all
@[simp] theorem busStart_raw (s : State) : (busStart s).raw = s.raw := by
  unfold busStart
  split <;> simp_all
@[simp] theorem busStart_frameCnt (s : State) : (busStart s).frameCnt = s.frameCnt := by
  unfold busStart
  split <;> simp_all
@[simp] theorem busStart_minQ (s : State) : (busStart s).minQ = s.minQ := by
  unfold busStart
  split <;> simp_all
@[simp] theorem busStart_maxQ (s : State) : (busStart s).maxQ = s.maxQ := by
  unfold busStart
  split <;> simp_all
@[simp] theorem busStart_sumQ (s : State) : (busStart s).sumQ = s.sumQ := by
  unfold busStart
  split <;> simp_all
@[simp] theorem busStart_avgC (s : State) : (busStart s).avgC = s.avgC := by
  unfold busStart
  split <;> simp_all
@[simp] theorem busStart_hiU (s : State) : (busStart s).hiU = s.hiU := by
  unfold busStart
  split <;> simp_all
@[simp] theorem busStart_lowU (s : State) : (busStart s).lowU = s.lowU := by
  unfold busStart
  split <;> simp_all
@[simp] theorem busStart_pix (s : State) : (busStart s).pix = s.pix := by
  unfold busStart
  split <;> simp_all
@[simp] theorem busStart_rstN (s : State) : (busStart s).rstN = s.rstN := by
  unfold busStart
  split <;> simp_all
@[simp] theorem busStart_now (s : State) : (busStart s).now = s.now := by
  unfold busStart
  split <;> simp_all
@[simp] theorem busStart_onBus (s : State) :
    (busStart s).onBus = (s.onBus || (s.rstN && !s.hung && !s.cancelPend && s.atTransaction)) := by
  unfold busStart
  split <;> simp_all
@[simp] theorem busStart_hung (s : State) : (busStart s).hung = s.hung := by
  unfold busStart
  split <;> simp_all
@[simp] theorem busStart_hRdata (s : State) : (busStart s).hRdata = s.hRdata := by
  unfold busStart
  split <;> simp_all
@[simp] theorem busStart_trace (s : State) : (busStart s).trace = s.trace := by
  unfold busStart
  split <;> simp_all
@[simp] theorem busStart_schedule (s : State) : (busStart s).schedule = s.schedule := by
  unfold busStart
  split <;> simp_all
@[simp] theorem busStart_program (s : State) : (busStart s).program = s.program := by
  unfold busStart
  split <;> simp_all
@[simp] theorem busStart_writeReplies (s : State) : (busStart s).writeReplies = s.writeReplies := by
  unfold busStart
  split <;> simp_all
@[simp] theorem busStart_readReplies (s : State) : (busStart s).readReplies = s.readReplies := by
  unfold busStart
  split <;> simp_all
@[simp] theorem busStart_draws (s : State) : (busStart s).draws = s.draws := by
  unfold busStart
  split <;> simp_all

end Sys2Proof.Machine
end

