-- ==== Sys2Proof/Laws/Ops.lean ====
section
/-! SUPPORT. For each shared operation, one lemma that says once all it can do; proofs cite these and do not unfold the
operation again. -/

namespace Sys2Proof.Machine

/-! ### The pixel buffer -/

@[simp] theorem setRaw_getElem (k : Nat) (v : Half) (pix : Vector Pixel 64) (i : Nat) (hi : i < 64) :
    (setRaw k v pix)[i] = if k = i then { pix[i] with raw := v } else pix[i] := by
  unfold setRaw
  by_cases hk : k < 64
  · rw [dif_pos hk, Vector.getElem_set]
    by_cases h : k = i
    · subst h; simp
    · simp [h]
  · rw [dif_neg hk, if_neg (by omega)]

@[simp] theorem bandPixels_getElem (st : FrameStats) (pix : Vector Pixel 64) (i : Nat) (hi : i < 64) :
    (bandPixels st pix)[i] = { pix[i] with band := (bandOf st (decodeRaw pix[i].raw)).code } := by
  simp [bandPixels]

/-- Bands are no part of what the statistics are computed from. -/
@[simp] theorem decodedPixels_bandPixels (st : FrameStats) (pix : Vector Pixel 64) :
    decodedPixels (bandPixels st pix) = decodedPixels pix := by
  unfold decodedPixels
  apply List.ext_getElem
  · simp
  · intro i h₁ h₂
    simp

theorem mem_decodedPixels {pix : Vector Pixel 64} {q : Int} (h : q ∈ decodedPixels pix) :
    ∃ v : Half, q = decodeRaw v := by
  obtain ⟨p, -, rfl⟩ := List.mem_map.mp h
  exact ⟨p.raw, rfl⟩

theorem decodedPixels_length (pix : Vector Pixel 64) : (decodedPixels pix).length = 64 := by
  simp [decodedPixels]

/-! ### The decoder -/

/-- The sign test with the 11-bit mask is a bound. -/
theorem signTest_iff (v : Half) : v &&& 0x7FF = v ↔ v.toNat < 0x800 := by
  have hm : (v &&& 0x7FF).toNat = v.toNat % 2 ^ 11 := by
    rw [BitVec.toNat_and]
    exact Nat.and_two_pow_sub_one_eq_mod v.toNat 11
  constructor
  · intro h
    have := congrArg BitVec.toNat h
    omega
  · intro h
    apply BitVec.eq_of_toNat_eq
    omega

/-- The decoder as bounds on the raw word. -/
theorem decodeRaw_eq (v : Half) :
    decodeRaw v = if v.toNat < 0x800 then (v.toNat : Int) else (v.toNat : Int) - 4096 := by
  unfold decodeRaw
  by_cases h : v.toNat < 0x800
  · rw [if_pos ((signTest_iff v).mpr h), if_pos h]
  · rw [if_neg (mt (signTest_iff v).mp h), if_neg h]

theorem decodeRaw_range (v : Half) : -2048 ≤ decodeRaw v ∧ decodeRaw v ≤ 61439 := by
  have := v.isLt
  rw [decodeRaw_eq]
  split <;> omega

/-! ### Transactions -/

theorem takeWriteReply_eq (s : State) :
    takeWriteReply s =
      ((s.writeReplies.head?).getD (Config.freeWriteReply s.draws),
        { s with
          writeReplies := s.writeReplies.tail
          draws        := if s.writeReplies = [] then s.draws + 1 else s.draws }) := by
  unfold takeWriteReply
  split <;> simp_all

theorem takeReadReply_eq (s : State) :
    takeReadReply s =
      ((s.readReplies.head?).getD (Config.freeReadReply s.draws),
        { s with
          readReplies := s.readReplies.tail
          draws       := if s.readReplies = [] then s.draws + 1 else s.draws }) := by
  unfold takeReadReply
  split <;> simp_all

/-- The state after a transaction: the wires' history, the oracle's list and the draws change, it is in progress no longer,
and nothing else changes. -/
def afterIssue (s : State) (r : BusRecord) (ws : List WriteReply) (rs : List ReadReply) (n : Nat) : State :=
  { s with trace := s.trace ++ [r], writeReplies := ws, readReplies := rs, draws := n, onBus := false }

/-- All a BusWriteByte can do as a sequencer step. -/
theorem writeTransaction_cases (reg data : Byte) (onOk : State → State) (s : State) :
    ∃ ws n,
      (writeTransaction reg data onOk s =
        onOk (afterIssue s (.write s.config.devAddr reg data (.ok ())) ws s.readReplies n)) ∨
      (∃ c, c ≠ ErrCode.none ∧ writeTransaction reg data onOk s =
        raiseFatal c reg false (afterIssue s (.write s.config.devAddr reg data (.fail c)) ws s.readReplies n)) ∨
      (writeTransaction reg data onOk s =
        { afterIssue s (.write s.config.devAddr reg data .held) ws s.readReplies n with hung := true }) := by
  refine ⟨s.writeReplies.tail, if s.writeReplies = [] then s.draws + 1 else s.draws, ?_⟩
  simp only [writeTransaction, busWriteByte, takeWriteReply_eq, afterIssue]
  cases (s.writeReplies.head?).getD (Config.freeWriteReply s.draws) with
  | ack => exact .inl rfl
  | addrNack => exact .inr (.inl ⟨.addrNack, by decide, rfl⟩)
  | regNack => exact .inr (.inl ⟨.regNack, by decide, rfl⟩)
  | dataNack => exact .inr (.inl ⟨.dataNack, by decide, rfl⟩)
  | arbLost => exact .inr (.inl ⟨.arbLost, by decide, rfl⟩)
  | sclHeld =>
      cases h : s.cfg.busTimeout with
      | none => exact .inr (.inr (by simp [writeResult]))
      | some t => exact .inr (.inl ⟨.timeout, by decide, by simp [writeResult]⟩)

/-- All a BusReadWord can do as a sequencer step. -/
theorem readTransaction_cases (reg : Byte) (onOk : Byte → Byte → State → State) (s : State) :
    ∃ rs n,
      (∃ b0 b1, readTransaction reg onOk s =
        onOk b0 b1 (afterIssue s (.read s.config.devAddr reg (.ok (b0, b1))) s.writeReplies rs n)) ∨
      (∃ c, c ≠ ErrCode.none ∧ readTransaction reg onOk s =
        raiseFatal c reg true (afterIssue s (.read s.config.devAddr reg (.fail c)) s.writeReplies rs n)) ∨
      (readTransaction reg onOk s =
        { afterIssue s (.read s.config.devAddr reg .held) s.writeReplies rs n with hung := true }) := by
  refine ⟨s.readReplies.tail, if s.readReplies = [] then s.draws + 1 else s.draws, ?_⟩
  simp only [readTransaction, busReadWord, takeReadReply_eq, afterIssue]
  cases (s.readReplies.head?).getD (Config.freeReadReply s.draws) with
  | ack b0 b1 => exact .inl ⟨b0, b1, rfl⟩
  | addrNack => exact .inr (.inl ⟨.addrNack, by decide, rfl⟩)
  | regNack => exact .inr (.inl ⟨.regNack, by decide, rfl⟩)
  | raddrNack => exact .inr (.inl ⟨.raddrNack, by decide, rfl⟩)
  | arbLost => exact .inr (.inl ⟨.arbLost, by decide, rfl⟩)
  | sclHeld =>
      cases h : s.cfg.busTimeout with
      | none => exact .inr (.inr (by simp [readResult]))
      | some t => exact .inr (.inl ⟨.timeout, by decide, by simp [readResult]⟩)

/-- A BusWriteByte whose listed answer is an acknowledge. -/
theorem writeTransaction_ack (reg data : Byte) (onOk : State → State) (s : State) (ws : List WriteReply)
    (h : s.writeReplies = .ack :: ws) :
    writeTransaction reg data onOk s =
      onOk (afterIssue s (.write s.config.devAddr reg data (.ok ())) ws s.readReplies s.draws) := by
  simp [writeTransaction, busWriteByte, takeWriteReply, h, writeResult, afterIssue]

/-- A BusReadWord whose listed answer is two bytes. -/
theorem readTransaction_ack (reg : Byte) (onOk : Byte → Byte → State → State) (s : State) (b0 b1 : Byte)
    (rs : List ReadReply) (h : s.readReplies = .ack b0 b1 :: rs) :
    readTransaction reg onOk s =
      onOk b0 b1 (afterIssue s (.read s.config.devAddr reg (.ok (b0, b1))) s.writeReplies rs s.draws) := by
  simp [readTransaction, busReadWord, takeReadReply, h, readResult, afterIssue]

/-- A BusWriteByte by the result of its listed answer. -/
theorem writeTransaction_listed (reg data : Byte) (onOk : State → State) (s : State) (r : WriteReply)
    (ws : List WriteReply) (h : s.writeReplies = r :: ws) :
    writeTransaction reg data onOk s =
      let t := afterIssue s (.write s.config.devAddr reg data (writeResult s.cfg.busTimeout r)) ws s.readReplies s.draws
      match writeResult s.cfg.busTimeout r with
      | .ok _   => onOk t
      | .fail c => raiseFatal c reg false t
      | .held   => { t with hung := true } := by
  simp only [writeTransaction, busWriteByte, takeWriteReply, h, afterIssue]
  cases writeResult s.cfg.busTimeout r <;> rfl

/-- A BusReadWord by the result of its listed answer. -/
theorem readTransaction_listed (reg : Byte) (onOk : Byte → Byte → State → State) (s : State) (r : ReadReply)
    (rs : List ReadReply) (h : s.readReplies = r :: rs) :
    readTransaction reg onOk s =
      let t := afterIssue s (.read s.config.devAddr reg (readResult s.cfg.busTimeout r)) s.writeReplies rs s.draws
      match readResult s.cfg.busTimeout r with
      | .ok (b0, b1) => onOk b0 b1 t
      | .fail c      => raiseFatal c reg true t
      | .held        => { t with hung := true } := by
  simp only [readTransaction, busReadWord, takeReadReply, h, afterIssue]
  cases readResult s.cfg.busTimeout r <;> rfl

/-! ### Command acceptance -/

/-- All the acceptance of a command can do (30_encoding.md R105). -/
theorem acceptCommand_cases (i : Instr) (needsInit : Bool) (start : State → State) (s : State) :
    (s.seqState = .halted ∧ acceptCommand i needsInit start s = raiseCmdErr .halted s) ∨
    (s.busy = true ∧ acceptCommand i needsInit start s = raiseCmdErr .busy s) ∨
    (s.seqState = .idle ∧ needsInit = true ∧ s.initDone = false ∧
      acceptCommand i needsInit start s = raiseCmdErr .notInit s) ∨
    (s.seqState = .idle ∧ (needsInit = true → s.initDone = true) ∧
      acceptCommand i needsInit start s = start (latchCommand i s)) := by
  unfold acceptCommand State.busy
  cases hs : s.seqState <;> cases hn : needsInit <;> cases hd : s.initDone <;> simp [SeqState.busy]

theorem acceptCommand_idle (i : Instr) (needsInit : Bool) (start : State → State) (s : State)
    (hs : s.seqState = .idle) (hd : needsInit = true → s.initDone = true) :
    acceptCommand i needsInit start s = start (latchCommand i s) := by
  unfold acceptCommand State.busy
  cases hn : needsInit <;> simp_all [SeqState.busy]

/-- A command never ends in a fault or a refusal. -/
theorem exec_next (i : Instr) (s : State) : ∃ t, exec i s = .next t := by
  cases i <;> exact ⟨_, rfl⟩

/-! ### Steps -/

/-- The order of a sequencer step (60_exceptions.md R229). -/
theorem sequencerStep_cases (s : State) :
    ((s.rstN = false ∨ s.hung = true) ∧ sequencerStep s = s) ∨
    (s.rstN = true ∧ s.hung = false ∧ s.busy = true ∧ s.cancelPend = true ∧ s.inTransaction = false ∧
      sequencerStep s = cancelStep s) ∨
    (s.rstN = true ∧ s.hung = false ∧ (s.busy = false ∨ s.cancelPend = false ∨ s.inTransaction = true) ∧
      sequencerStep s = commandStep s) := by
  unfold sequencerStep
  cases hr : s.rstN <;> cases hh : s.hung <;> cases hb : s.busy <;> cases hc : s.cancelPend <;>
    cases ht : s.inTransaction <;> simp

/-- A step of the machine is the step of one agent. -/
theorem step_eq (s : State) : step s = runEvent (takeEvent s).1 (takeEvent s).2 := rfl

/-- Choosing the agent changes the order's own data and nothing else. -/
theorem takeEvent_snd (s : State) :
    (takeEvent s).2 =
      { s with
        schedule := s.schedule.tail
        draws    := if s.schedule = [] then s.draws + 1 else s.draws } := by
  unfold takeEvent
  split <;> simp_all

theorem takeEvent_cons (s : State) (e : Event) (es : List Event) (h : s.schedule = e :: es) :
    takeEvent s = (e, { s with schedule := es }) := by
  simp [takeEvent, h]

/-- The line of the host and the state it is run in. -/
theorem hostStep_eq (s : State) :
    hostStep s =
      runHostLine ((s.program.head?).getD (Config.freeHostLine s.draws))
        { s with
          program := s.program.tail
          draws   := if s.program = [] then s.draws + 1 else s.draws } := by
  unfold hostStep
  split <;> simp_all

end Sys2Proof.Machine
end

