-- ==== Sys2Proof/Laws/Sequencer.lean ====
section
/-! SUPPORT. All a command step of the sequencer can do, said once: one constructor for each way it can end. Proofs about
the sequencer take a step apart with `commandStep_move` and do not unfold the step functions again. -/

namespace Sys2Proof.Machine

/-- `CommandMove s t`: from `s` the command step of the sequencer can lead to `t`. -/
inductive CommandMove (s : State) : State → Prop where
  /-- no step is enabled -/
  | stay : CommandMove s s
  /-- SETTLE1 has elapsed -/
  | settled (hs : s.seqState = .init) (hq : s.seqStep = .settle1) (hw : s.waitUntil ≤ s.now) :
      CommandMove s { s with seqStep := .wPctl }
  /-- W_PCTL or W_SCLR was acknowledged -/
  | initWrote (reg data : Byte) (q : SeqStep) (ws : List WriteReply) (n : Nat) (hs : s.seqState = .init)
      (hq : s.seqStep = .wPctl ∧ reg = 0x00 ∧ data = 0x00 ∧ q = .wSclr ∨
        s.seqStep = .wSclr ∧ reg = 0x05 ∧ data = 0x0E ∧ q = .wRst) :
      CommandMove s
        { afterIssue s (.write s.config.devAddr reg data (.ok ())) ws s.readReplies n with seqStep := q }
  /-- W_RST was acknowledged -/
  | resetWrote (ws : List WriteReply) (n : Nat) (hs : s.seqState = .init) (hq : s.seqStep = .wRst) :
      CommandMove s
        { afterIssue s (.write s.config.devAddr 0x01 0x3F (.ok ())) ws s.readReplies n with
          seqStep := .settle2, waitUntil := s.now + s.cfg.settleTime }
  /-- SETTLE2 has elapsed -/
  | initDone (hs : s.seqState = .init) (hq : s.seqStep = .settle2) (hw : s.waitUntil ≤ s.now) :
      CommandMove s (finishInit s)
  /-- the transfer of WRBYTE was acknowledged -/
  | wrote (ws : List WriteReply) (n : Nat) (hs : s.seqState = .prim) (hq : s.seqStep = .xfer)
      (hop : s.latch.op = 0x1) :
      CommandMove s
        (endTransfer (afterIssue s (.write s.config.devAddr s.latch.reg s.latch.data (.ok ())) ws s.readReplies n))
  /-- the transfer of RDWORD was answered -/
  | readWord (b0 b1 : Byte) (rs : List ReadReply) (n : Nat) (hs : s.seqState = .prim) (hq : s.seqStep = .xfer)
      (hop : s.latch.op = 0x2) :
      CommandMove s
        (endTransfer
          { afterIssue s (.read s.config.devAddr s.latch.reg (.ok (b0, b1))) s.writeReplies rs n with
            raw := norm s.config.swap b0 b1 })
  /-- a READ was answered -/
  | readPixel (b0 b1 : Byte) (rs : List ReadReply) (n : Nat) (hs : s.seqState = .frame ∨ s.seqState = .runFrame)
      (hq : s.seqStep = .read) (hk : s.k < 64) :
      CommandMove s
        (storePixel b0 b1
          (afterIssue s (.read s.config.devAddr (pixelReg s.k) (.ok (b0, b1))) s.writeReplies rs n))
  /-- STATS -/
  | completed (hs : s.seqState = .frame ∨ s.seqState = .runFrame) (hq : s.seqStep = .stats) :
      CommandMove s (completeFrame s)
  /-- the wait of RUN has elapsed -/
  | nextFrame (hs : s.seqState = .runWait) (hw : s.waitUntil ≤ s.now) : CommandMove s (startRunFrame s)
  /-- a write failed -/
  | writeFailed (reg data : Byte) (c : ErrCode) (ws : List WriteReply) (n : Nat)
      (hs : s.seqState = .init ∨ s.seqState = .prim) (hc : c ≠ .none) :
      CommandMove s
        (raiseFatal c reg false
          (afterIssue s (.write s.config.devAddr reg data (.fail c)) ws s.readReplies n))
  /-- a read failed -/
  | readFailed (reg : Byte) (c : ErrCode) (rs : List ReadReply) (n : Nat)
      (hs : s.seqState = .prim ∨ s.seqState = .frame ∨ s.seqState = .runFrame) (hc : c ≠ .none) :
      CommandMove s
        (raiseFatal c reg true
          (afterIssue s (.read s.config.devAddr reg (.fail c)) s.writeReplies rs n))
  /-- a write never ends -/
  | writeHeld (reg data : Byte) (ws : List WriteReply) (n : Nat)
      (hs : s.seqState = .init ∨ s.seqState = .prim) :
      CommandMove s
        { afterIssue s (.write s.config.devAddr reg data .held) ws s.readReplies n with hung := true }
  /-- a read never ends -/
  | readHeld (reg : Byte) (rs : List ReadReply) (n : Nat)
      (hs : s.seqState = .prim ∨ s.seqState = .frame ∨ s.seqState = .runFrame) :
      CommandMove s
        { afterIssue s (.read s.config.devAddr reg .held) s.writeReplies rs n with hung := true }

theorem initStep_move (s : State) (hs : s.seqState = .init) : CommandMove s (initStep s) := by
  unfold initStep
  split
  next hq =>
    unfold afterWait
    split
    · exact .settled hs hq (by assumption)
    · exact .stay
  next hq =>
    obtain ⟨ws, n, h | ⟨c, hc, h⟩ | h⟩ := writeTransaction_cases 0x00 0x00 _ s <;> rw [h]
    · exact .initWrote 0x00 0x00 .wSclr ws n hs (.inl ⟨hq, rfl, rfl, rfl⟩)
    · exact .writeFailed _ _ c ws n (.inl hs) hc
    · exact .writeHeld _ _ ws n (.inl hs)
  next hq =>
    obtain ⟨ws, n, h | ⟨c, hc, h⟩ | h⟩ := writeTransaction_cases 0x05 0x0E _ s <;> rw [h]
    · exact .initWrote 0x05 0x0E .wRst ws n hs (.inr ⟨hq, rfl, rfl, rfl⟩)
    · exact .writeFailed _ _ c ws n (.inl hs) hc
    · exact .writeHeld _ _ ws n (.inl hs)
  next hq =>
    obtain ⟨ws, n, h | ⟨c, hc, h⟩ | h⟩ := writeTransaction_cases 0x01 0x3F _ s <;> rw [h]
    · exact .resetWrote ws n hs hq
    · exact .writeFailed _ _ c ws n (.inl hs) hc
    · exact .writeHeld _ _ ws n (.inl hs)
  next hq =>
    unfold afterWait
    split
    · exact .initDone hs hq (by assumption)
    · exact .stay
  next => exact .stay

theorem primStep_move (s : State) (hs : s.seqState = .prim) : CommandMove s (primStep s) := by
  unfold primStep
  split
  next hq =>
    split
    next hop =>
      unfold wrbyteTransfer
      obtain ⟨ws, n, h | ⟨c, hc, h⟩ | h⟩ := writeTransaction_cases s.latch.reg s.latch.data _ s <;> rw [h]
      · exact .wrote ws n hs hq hop
      · exact .writeFailed _ _ c ws n (.inr hs) hc
      · exact .writeHeld _ _ ws n (.inr hs)
    next =>
      split
      next hop =>
        unfold rdwordTransfer
        obtain ⟨rs, n, ⟨b0, b1, h⟩ | ⟨c, hc, h⟩ | h⟩ := readTransaction_cases s.latch.reg _ s <;> rw [h]
        · exact .readWord b0 b1 rs n hs hq hop
        · exact .readFailed _ c rs n (.inl hs) hc
        · exact .readHeld _ rs n (.inl hs)
      next => exact .stay
  next => exact .stay

theorem frameStep_move (s : State) (hs : s.seqState = .frame ∨ s.seqState = .runFrame) :
    CommandMove s (frameStep s) := by
  unfold frameStep
  split
  next hq =>
    unfold readPixel
    split
    next hk =>
      obtain ⟨rs, n, ⟨b0, b1, h⟩ | ⟨c, hc, h⟩ | h⟩ := readTransaction_cases (pixelReg s.k) storePixel s <;> rw [h]
      · exact .readPixel b0 b1 rs n hs hq hk
      · exact .readFailed _ c rs n (.inr hs) hc
      · exact .readHeld _ rs n (.inr hs)
    next => exact .stay
  next hq => exact .completed hs hq
  next => exact .stay

/-- What a command step does is one of the moves. -/
theorem commandStep_move (s : State) : CommandMove s (commandStep s) := by
  unfold commandStep
  split
  next => exact .stay
  next hs => exact initStep_move s hs
  next hs => exact primStep_move s hs
  next hs => exact frameStep_move s (.inl hs)
  next hs => exact frameStep_move s (.inr hs)
  next hs =>
    unfold runWaitStep afterWait
    split
    · exact .nextFrame hs (by assumption)
    · exact .stay
  next => exact .stay

/-- What the sequencer's step does: nothing, the cancel step, or a command move. -/
theorem sequencerStep_move (s : State) :
    sequencerStep s = s ∨
    (s.busy = true ∧ s.cancelPend = true ∧ s.inTransaction = false ∧ sequencerStep s = cancelStep s) ∨
    (s.rstN = true ∧ s.hung = false ∧ (s.busy = false ∨ s.cancelPend = false ∨ s.inTransaction = true) ∧
      CommandMove s (sequencerStep s)) := by
  rcases sequencerStep_cases s with ⟨-, h⟩ | ⟨-, -, hb, hc, ht, h⟩ | ⟨hr, hh, hc, h⟩
  · exact .inl h
  · exact .inr (.inl ⟨hb, hc, ht, h⟩)
  · exact .inr (.inr ⟨hr, hh, hc, h ▸ commandStep_move s⟩)

end Sys2Proof.Machine
end

