-- ==== Sys2Proof/Laws/Agents.lean ====
section
/-! SUPPORT. All the other agents can do, said once: one constructor for each way a host access can end, and the moves of
a step of the machine. -/

namespace Sys2Proof.Machine

/-- A sequencer step that is its command's is the command step. -/
theorem sequencerStep_due {s : State} (h : s.StepDue) : sequencerStep s = commandStep s := by
  obtain ⟨hr, hh, hc | hc⟩ := h <;> simp [sequencerStep, hr, hh, hc]

theorem stepDue_of_undisturbed {s : State} (h : s.Undisturbed) : s.StepDue := ⟨h.1, h.2.1, .inl h.2.2⟩

theorem atTransaction_of_nextWrite {s : State} {reg data : Byte} (h : s.NextWrite reg data) :
    s.atTransaction = true := by
  rcases h with ⟨hs, ⟨hq, -⟩ | ⟨hq, -⟩ | ⟨hq, -⟩⟩ | ⟨hs, hq, hop, -⟩ <;> simp_all [State.atTransaction]

theorem atTransaction_of_nextRead {s : State} {reg : Byte} (h : s.NextRead reg) : s.atTransaction = true := by
  rcases h with ⟨hs | hs, hq, hk, -⟩ | ⟨hs, hq, hop, -⟩ <;> simp_all [State.atTransaction]

/-- Only a busy block stands at a transaction. -/
theorem busy_of_atTransaction {s : State} (h : s.atTransaction = true) : s.busy = true := by
  unfold State.atTransaction at h
  unfold State.busy
  split at h <;> simp_all [SeqState.busy]

/-- Where BusWriteByte comes next, the command step is that transaction. -/
theorem commandStep_nextWrite {s : State} {reg data : Byte} (h : s.NextWrite reg data) :
    ∃ onOk, commandStep s = writeTransaction reg data onOk s := by
  rcases h with ⟨hs, ⟨hq, rfl, rfl⟩ | ⟨hq, rfl, rfl⟩ | ⟨hq, rfl, rfl⟩⟩ | ⟨hs, hq, hop, rfl, rfl⟩
  · simp only [commandStep, hs, initStep, hq]
    exact ⟨_, rfl⟩
  · simp only [commandStep, hs, initStep, hq]
    exact ⟨_, rfl⟩
  · simp only [commandStep, hs, initStep, hq]
    exact ⟨_, rfl⟩
  · simp only [commandStep, hs, primStep, hq, if_pos hop, wrbyteTransfer, CmdLatch.data]
    exact ⟨_, rfl⟩

/-- Where BusReadWord comes next, the command step is that transaction. -/
theorem commandStep_nextRead {s : State} {reg : Byte} (h : s.NextRead reg) :
    ∃ onOk, commandStep s = readTransaction reg onOk s := by
  rcases h with ⟨hs | hs, hq, hk, rfl⟩ | ⟨hs, hq, hop, rfl⟩
  · simp only [commandStep, hs, frameStep, hq, readPixel, if_pos hk, pixelReg]
    exact ⟨_, rfl⟩
  · simp only [commandStep, hs, frameStep, hq, readPixel, if_pos hk, pixelReg]
    exact ⟨_, rfl⟩
  · simp only [commandStep, hs, primStep, hq, if_pos hop, if_neg (show ¬ s.latch.op = 0x1 by rw [hop]; decide),
      rdwordTransfer]
    exact ⟨_, rfl⟩

/-- `IssueMove i s t`: issuing the command `i` in `s` gives `t` (30_encoding.md R105). -/
inductive IssueMove (s : State) : Instr → State → Prop where
  /-- NOP, or a STOP with nothing to cancel -/
  | nothing (i : Instr) (hi : i = .nop ∨ i = .stop) : IssueMove s i s
  /-- the command is rejected -/
  | rejected (i : Instr) (c : CmdCause) (hi : i ≠ .nop) (hc : c ≠ .none) : IssueMove s i (raiseCmdErr c s)
  /-- WRBYTE or RDWORD starts -/
  | transfer (i : Instr) (hi : i.op = 0x1 ∨ i.op = 0x2) (hs : s.seqState = .idle) :
      IssueMove s i (startTransfer (latchCommand i s))
  /-- DECODE runs -/
  | decoded (v : Half) (hs : s.seqState = .idle) :
      IssueMove s (.decode v) (startDecode v (latchCommand (.decode v) s))
  /-- INIT starts -/
  | initStarted (hs : s.seqState = .idle) : IssueMove s .init (startInit (latchCommand .init s))
  /-- FRAME starts -/
  | frameStarted (hs : s.seqState = .idle) (hd : s.initDone = true) :
      IssueMove s .frame (startFrame (latchCommand .frame s))
  /-- RUN starts -/
  | runStarted (hs : s.seqState = .idle) (hd : s.initDone = true) :
      IssueMove s .run (startRunFrame (latchCommand .run s))
  /-- STOP requests a cancel -/
  | stopped (hb : s.busy = true) : IssueMove s .stop { s with cancelPend := true }

theorem acceptCommand_move (i : Instr) (needsInit : Bool) (start : State → State) (s : State) (hi : i ≠ .nop)
    (h : s.seqState = .idle → (needsInit = true → s.initDone = true) →
      IssueMove s i (start (latchCommand i s))) :
    IssueMove s i (acceptCommand i needsInit start s) := by
  rcases acceptCommand_cases i needsInit start s with ⟨-, e⟩ | ⟨-, e⟩ | ⟨-, -, -, e⟩ | ⟨hs, hd, e⟩ <;> rw [e]
  · exact .rejected i _ hi (by decide)
  · exact .rejected i _ hi (by decide)
  · exact .rejected i _ hi (by decide)
  · exact h hs hd

/-- What issuing a command does is one of the moves. -/
theorem exec_move (i : Instr) (s : State) : ∃ t, exec i s = .next t ∧ IssueMove s i t := by
  refine ⟨_, (exec_next i s).choose_spec, ?_⟩
  generalize ht : (exec_next i s).choose = t
  have he : exec i s = .next t := ht ▸ (exec_next i s).choose_spec
  cases i with
  | nop => injection he with he; subst he; exact .nothing _ (.inl rfl)
  | wrbyte reg data =>
      injection he with he; subst he
      exact acceptCommand_move _ _ _ s (by simp) fun hs _ => .transfer _ (.inl rfl) hs
  | rdword reg =>
      injection he with he; subst he
      exact acceptCommand_move _ _ _ s (by simp) fun hs _ => .transfer _ (.inr rfl) hs
  | decode v =>
      injection he with he; subst he
      exact acceptCommand_move _ _ _ s (by simp) fun hs _ => .decoded v hs
  | init =>
      injection he with he; subst he
      exact acceptCommand_move _ _ _ s (by simp) fun hs _ => .initStarted hs
  | frame =>
      injection he with he; subst he
      exact acceptCommand_move _ _ _ s (by simp) fun hs hd => .frameStarted hs (hd rfl)
  | run =>
      injection he with he; subst he
      exact acceptCommand_move _ _ _ s (by simp) fun hs hd => .runStarted hs (hd rfl)
  | stop =>
      injection he with he; subst he
      split
      · exact .rejected _ _ (by simp) (by decide)
      · split
        next hb => exact .stopped hb
        next => exact .nothing _ (.inr rfl)

/-- `HostMove l s t`: the host's line `l` run in `s` gives `t` (40_bus_primitives.md R123, R124). -/
inductive HostMove (s : State) : HostLine → State → Prop where
  /-- a write with no effect: under reset, or at an offset that is not CONFIG, CMD or STATUS -/
  | noEffect (a : BitVec 8) (w : Word) : HostMove s (.write a w) s
  /-- a write that raises a command error: a CONFIG write while busy, or a word that is no command -/
  | refused (a : BitVec 8) (w : Word) (c : CmdCause) (hr : s.rstN = true) (hc : c ≠ .none) :
      HostMove s (.write a w) (raiseCmdErr c s)
  /-- a CONFIG write -/
  | config (w : Word) (hr : s.rstN = true) (hb : s.busy = false) :
      HostMove s (.write 1 w) { s with config := configOf w }
  /-- a CMD write of a command -/
  | command (w : Word) (i : Instr) (t : State) (hr : s.rstN = true) (hd : decodeWord w = .ok i)
      (hm : IssueMove s i t) : HostMove s (.write 2 w) t
  /-- a STATUS write -/
  | status (w : Word) (hr : s.rstN = true) : HostMove s (.write 3 w) (writeStatus w s)
  /-- a read, or a POLL that is done -/
  | read (l : HostLine) (a : BitVec 8) (hl : l = .read a ∨ ∃ m v, l = .poll a m v) :
      HostMove s l { s with hRdata := readReg s a }
  /-- a POLL that stays the host's next line -/
  | polled (a : BitVec 8) (m v : Word) :
      HostMove s (.poll a m v) { s with hRdata := readReg s a, program := .poll a m v :: s.program }

theorem causeOf_ne_none (e : DecodeError) : causeOf e ≠ .none := by cases e <;> decide

theorem hostWrite_move (a : BitVec 8) (w : Word) (s : State) :
    ∃ t, hostWrite a w s = .next t ∧ HostMove s (.write a w) t := by
  unfold hostWrite
  split
  next hr =>
    split
    next ha =>
      obtain rfl : a = 1 := BitVec.eq_of_toNat_eq ha
      refine ⟨_, rfl, ?_⟩
      unfold writeConfig
      cases hb : s.busy
      · exact .config w hr hb
      · exact .refused _ w .busy hr (by decide)
    next ha =>
      obtain rfl : a = 2 := BitVec.eq_of_toNat_eq ha
      unfold issueCommand
      cases hd : decodeWord w with
      | ok i =>
          obtain ⟨t, ht, hm⟩ := exec_move i s
          exact ⟨t, ht, .command w i t hr hd hm⟩
      | error e => exact ⟨_, rfl, .refused _ w _ hr (causeOf_ne_none e)⟩
    next ha =>
      obtain rfl : a = 3 := BitVec.eq_of_toNat_eq ha
      exact ⟨_, rfl, .status w hr⟩
    next => exact ⟨_, rfl, .noEffect a w⟩
  next => exact ⟨_, rfl, .noEffect a w⟩

theorem runHostLine_move (l : HostLine) (s : State) :
    ∃ t, runHostLine l s = .next t ∧ HostMove s l t := by
  cases l with
  | write a w => exact hostWrite_move a w s
  | read a => exact ⟨_, rfl, .read _ a (.inl rfl)⟩
  | poll a m v =>
      unfold runHostLine
      dsimp only
      split
      · exact ⟨_, rfl, .read _ a (.inr ⟨m, v, rfl⟩)⟩
      · exact ⟨_, rfl, .polled a m v⟩

/-- The state in which the host's next line runs: its own list and the draws have moved on. -/
def afterLine (s : State) (ls : List HostLine) (n : Nat) : State := { s with program := ls, draws := n }

/-- The state in which the next event runs: the order's list and the draws have moved on. -/
def afterEvent (s : State) (es : List Event) (n : Nat) : State := { s with schedule := es, draws := n }

theorem nextLine_eq (s : State) :
    s.nextLine = (s.program.head?).getD
      (Config.freeHostLine (if s.schedule = [] then s.draws + 1 else s.draws)) := by
  unfold State.nextLine
  rw [takeEvent_snd]
  cases s.program <;> rfl

/-- What a step of the machine does, agent by agent. -/
theorem step_cases (s : State) :
    ∃ es n,
      (s.nextEvent = .host ∧ ∃ ls m t, step s = .next t ∧
        HostMove (afterLine (afterEvent s es n) ls m) s.nextLine t) ∨
      (s.nextEvent = .sequencer ∧ step s = .next (sequencerStep (afterEvent s es n))) ∨
      (∃ δ, s.nextEvent = .timer δ ∧ step s = .next (advanceTime δ (afterEvent s es n))) ∨
      (∃ b, s.nextEvent = .cancelSample b ∧ step s = .next (sampleCancel b (afterEvent s es n))) ∨
      (∃ b, s.nextEvent = .resetLevel b ∧ step s = .next (setReset b (afterEvent s es n))) ∨
      (s.nextEvent = .busStart ∧ step s = .next (busStart (afterEvent s es n))) := by
  refine ⟨s.schedule.tail, if s.schedule = [] then s.draws + 1 else s.draws, ?_⟩
  rw [step_eq, takeEvent_snd, nextLine_eq]
  show _ ∨ _
  cases he : s.nextEvent with
  | host =>
      have he' : (takeEvent s).1 = .host := he
      refine .inl ⟨rfl, ?_⟩
      simp only [he', runEvent]
      rw [hostStep_eq]
      obtain ⟨t, ht, hm⟩ := runHostLine_move
        ((s.program.head?).getD (Config.freeHostLine (if s.schedule = [] then s.draws + 1 else s.draws)))
        (afterLine (afterEvent s s.schedule.tail (if s.schedule = [] then s.draws + 1 else s.draws))
          s.program.tail
          (if s.program = [] then (if s.schedule = [] then s.draws + 1 else s.draws) + 1
            else if s.schedule = [] then s.draws + 1 else s.draws))
      exact ⟨_, _, t, ht, hm⟩
  | sequencer =>
      have he' : (takeEvent s).1 = .sequencer := he
      exact .inr (.inl ⟨rfl, by rw [he']; rfl⟩)
  | timer δ =>
      have he' : (takeEvent s).1 = .timer δ := he
      exact .inr (.inr (.inl ⟨δ, rfl, by rw [he']; rfl⟩))
  | cancelSample b =>
      have he' : (takeEvent s).1 = .cancelSample b := he
      exact .inr (.inr (.inr (.inl ⟨b, rfl, by rw [he']; rfl⟩)))
  | resetLevel b =>
      have he' : (takeEvent s).1 = .resetLevel b := he
      exact .inr (.inr (.inr (.inr (.inl ⟨b, rfl, by rw [he']; rfl⟩))))
  | busStart =>
      have he' : (takeEvent s).1 = .busStart := he
      exact .inr (.inr (.inr (.inr (.inr ⟨rfl, by rw [he']; rfl⟩))))

end Sys2Proof.Machine
end

