-- ==== Sys2Proof/Laws/Bus.lean ====
section
/-! SUPPORT. What a transaction that is cut looks like on the wires: all the ways, said once, and that one of them is the
one taken. -/

namespace Sys2Proof.Machine

/-- A cut sequence is a part of the whole one and the symbol it is cut in. -/
theorem mem_cuts {mark : WireSym → Nat → WireSym} {points : WireSym → List Nat} {ws l : List WireSym} :
    l ∈ cuts mark points ws ↔
      ∃ pre w post p, ws = pre ++ w :: post ∧ p ∈ points w ∧ l = pre ++ [mark w p] := by
  induction ws generalizing l with
  | nil => simp [cuts]
  | cons v vs ih =>
    simp only [cuts, List.mem_append, List.mem_map, ih]
    constructor
    · rintro (⟨p, hp, rfl⟩ | ⟨_, ⟨pre, w, post, p, rfl, hp, rfl⟩, rfl⟩)
      · exact ⟨[], v, vs, p, rfl, hp, rfl⟩
      · exact ⟨v :: pre, w, post, p, rfl, hp, rfl⟩
    · rintro ⟨_ | ⟨u, pre⟩, w, post, p, h, hp, rfl⟩
      · obtain ⟨rfl, rfl⟩ := List.cons.inj h
        exact .inl ⟨p, hp, rfl⟩
      · obtain ⟨rfl, rfl⟩ := List.cons.inj h
        exact .inr ⟨_, ⟨pre, w, post, p, rfl, hp, rfl⟩, rfl⟩

theorem mem_phases {cond : Bool × Bool → Bool} {w : WireSym} {p : Nat} :
    p ∈ w.phases cond ↔ ∃ q, w.blockPulls[p]? = some q ∧ cond q = true := by
  simp only [WireSym.phases, List.mem_filter, List.mem_range, Option.any_eq_true]
  constructor
  · exact fun h => h.2
  · rintro ⟨q, hq, hc⟩
    exact ⟨(List.getElem?_eq_some_iff.mp hq).1, q, hq, hc⟩

/-- A loss comes where the block, not listening, has released both wires (20_memory.md R82). -/
theorem mem_losses {w : WireSym} {p : Nat} :
    p ∈ w.losses ↔ w.listens = false ∧ w.blockPulls[p]? = some (false, false) := by
  unfold WireSym.losses
  split <;> simp_all [mem_phases]

/-- SCL stays low where the block has released it (20_memory.md R98). -/
theorem mem_stalls {w : WireSym} {p : Nat} : p ∈ w.stalls ↔ ∃ sda, w.blockPulls[p]? = some (false, sda) := by
  simp [WireSym.stalls, mem_phases]

/-- Some way to cut is taken, and the STOP attempted after it (20_memory.md R82). -/
theorem cutSyms_cases (n : Nat) {ways : List (List WireSym)} (h : ways ≠ []) :
    ∃ l ∈ ways, cutSyms n ways = l ++ [.stopAttempt (Config.freeOtherPulls n)] := by
  have hlt : Config.freeCut n % ways.length < ways.length := Nat.mod_lt _ (List.length_pos_iff.mpr h)
  exact ⟨ways[Config.freeCut n % ways.length], List.getElem_mem hlt, by simp [cutSyms, hlt]⟩

/-- A START can be cut, so every transaction can. -/
theorem cuts_start_ne_nil {mark : WireSym → Nat → WireSym} {points : WireSym → List Nat} (ws : List WireSym)
    (h : points .start ≠ []) : cuts mark points (.start :: ws) ≠ [] := by
  simp [cuts, h]

/-- The two ends go through a symbol of a whole sequence in as many phases. -/
theorem length_targetPulls {w : WireSym} (h : (∀ v p, w ≠ .sdaLost v p) ∧ ∀ v p, w ≠ .sclStuck v p) :
    w.targetPulls.length = w.blockPulls.length := by
  cases w with
  | start => rfl
  | restart => rfl
  | stop => rfl
  | nack => rfl
  | ack y => cases y <;> rfl
  | byte y b => cases y <;> rfl
  | stopAttempt o => simp [WireSym.targetPulls, WireSym.blockPulls]
  | sdaLost v p => exact absurd rfl (h.1 v p)
  | sclStuck v p => exact absurd rfl (h.2 v p)

theorem getLast?_zipWith_take {α β γ : Type} (f : α → β → γ) (xs : List α) (ys : List β) (p : Nat) (x : α) (y : β)
    (hx : xs[p]? = some x) (hy : p ≤ ys.length) :
    (List.zipWith f (xs.take (p + 1)) (ys.take p ++ [y])).getLast? = some (f x y) := by
  have hp := (List.getElem?_eq_some_iff.mp hx).1
  rw [List.take_add_one, hx, List.zipWith_append (by simp; omega)]
  simp

/-- Where SDA is lost the line is low with SCL high (20_memory.md R82). -/
theorem levels_sdaLost {w : WireSym} {p : Nat} (h : w.blockPulls[p]? = some (false, false))
    (hl : w.targetPulls.length = w.blockPulls.length) :
    (WireSym.sdaLost w p).levels.getLast? = some (true, false) := by
  have hp := (List.getElem?_eq_some_iff.mp h).1
  exact getLast?_zipWith_take _ _ _ p (false, false) (false, true) h (by omega)

/-- Where SCL stays low it is low, though the block has released it (20_memory.md R98). -/
theorem levels_sclStuck {w : WireSym} {p : Nat} {sda : Bool} (h : w.blockPulls[p]? = some (false, sda))
    (hl : w.targetPulls.length = w.blockPulls.length) :
    ∃ level, (WireSym.sclStuck w p).levels.getLast? = some (false, level) := by
  have hp := (List.getElem?_eq_some_iff.mp h).1
  have hd : (w.targetPulls.drop p).head? = some (w.targetPulls[p]'(by omega)) := by
    rw [List.head?_drop, List.getElem?_eq_getElem]
  have e : (WireSym.sclStuck w p).levels = List.zipWith (fun m t => (!(m.1 || t.1), !(m.2 || t.2)))
      (w.blockPulls.take (p + 1)) (w.targetPulls.take p ++ [(true, (w.targetPulls[p]'(by omega)).2)]) := by
    simp [WireSym.levels, WireSym.blockPulls, WireSym.targetPulls, hd]
  exact ⟨_, e ▸ getLast?_zipWith_take _ _ _ p (false, sda) _ h (by omega)⟩

end Sys2Proof.Machine
end

