-- ==== Sys2Proof/Laws/PerInstr.lean ====
section
/-! SUPPORT. The fields of a packed command word, and per-instruction laws: facts of each command as syntax. -/

namespace Sys2Proof

/-! ### The fields of a packed word (30_encoding.md R100) -/

theorem packFields_toNat (op : BitVec 4) (reg : Byte) (imm : Half) :
    (packFields op reg imm).toNat = op.toNat + 256 * reg.toNat + 65536 * imm.toNat := by
  have ho := op.isLt
  have hr := reg.isLt
  have hi := imm.isLt
  have e : packFields op reg imm =
      BitVec.ofNat 32 (op.toNat ||| (reg.toNat <<< 8) ||| (imm.toNat <<< 16)) := by
    apply BitVec.eq_of_toNat_eq
    simp only [packFields, BitVec.toNat_or, BitVec.toNat_shiftLeft, BitVec.toNat_setWidth,
      BitVec.toNat_ofNat, Nat.shiftLeft_eq]
    rw [Nat.mod_eq_of_lt (a := op.toNat) (by omega), Nat.mod_eq_of_lt (a := reg.toNat) (by omega),
      Nat.mod_eq_of_lt (a := imm.toNat) (by omega), Nat.mod_eq_of_lt (a := reg.toNat * 2 ^ 8) (by omega),
      Nat.mod_eq_of_lt (a := imm.toNat * 2 ^ 16) (by omega), Nat.mod_eq_of_lt]
    exact Nat.or_lt_two_pow (Nat.or_lt_two_pow (by omega) (by omega)) (by omega)
  have h₁ : op.toNat ||| (reg.toNat <<< 8) = op.toNat + 256 * reg.toNat := by
    rw [Nat.or_comm, ← Nat.shiftLeft_add_eq_or_of_lt (by omega) reg.toNat, Nat.shiftLeft_eq]
    omega
  have h₂ : op.toNat + 256 * reg.toNat ||| (imm.toNat <<< 16) =
      op.toNat + 256 * reg.toNat + 65536 * imm.toNat := by
    rw [Nat.or_comm, ← Nat.shiftLeft_add_eq_or_of_lt (by omega) imm.toNat, Nat.shiftLeft_eq]
    omega
  rw [e, h₁, h₂, BitVec.toNat_ofNat]
  omega

@[simp] theorem opField_packFields (op : BitVec 4) (reg : Byte) (imm : Half) :
    opField (packFields op reg imm) = op := by
  apply BitVec.eq_of_toNat_eq
  have := op.isLt
  simp only [opField, BitVec.extractLsb'_toNat, packFields_toNat, Nat.shiftRight_eq_div_pow]
  omega

@[simp] theorem rsvField_packFields (op : BitVec 4) (reg : Byte) (imm : Half) :
    rsvField (packFields op reg imm) = 0#4 := by
  apply BitVec.eq_of_toNat_eq
  have := op.isLt
  simp only [rsvField, BitVec.extractLsb'_toNat, packFields_toNat, Nat.shiftRight_eq_div_pow,
    BitVec.toNat_ofNat]
  omega

@[simp] theorem regField_packFields (op : BitVec 4) (reg : Byte) (imm : Half) :
    regField (packFields op reg imm) = reg := by
  apply BitVec.eq_of_toNat_eq
  have := op.isLt
  have := reg.isLt
  simp only [regField, BitVec.extractLsb'_toNat, packFields_toNat, Nat.shiftRight_eq_div_pow]
  omega

@[simp] theorem immField_packFields (op : BitVec 4) (reg : Byte) (imm : Half) :
    immField (packFields op reg imm) = imm := by
  apply BitVec.eq_of_toNat_eq
  have := op.isLt
  have := reg.isLt
  have := imm.isLt
  simp only [immField, BitVec.extractLsb'_toNat, packFields_toNat, Nat.shiftRight_eq_div_pow]
  omega

end Sys2Proof

namespace Sys2Proof.Laws.MaskMatch

/-- The encoding of the command passes the MASK/MATCH test of its own row of 30_encoding.md R102. -/
def Statement (i : Instr) : Prop := encode i &&& cmdMask i.op.toNat = cmdMatch i.op.toNat

theorem nop : Statement .nop := by unfold Statement; decide

theorem wrbyte (reg data : Byte) : Statement (.wrbyte reg data) := by
  show packFields 0x1 reg (data.zeroExtend 16) &&& 0xFF0000FF = 0x00000001
  ext i hi
  interval_cases i <;> simp [packFields]

theorem rdword (reg : Byte) : Statement (.rdword reg) := by
  show packFields 0x2 reg 0 &&& 0xFFFF00FF = 0x00000002
  ext i hi
  interval_cases i <;> simp [packFields]

theorem decode (rawIn : Half) : Statement (.decode rawIn) := by
  show packFields 0x3 0 rawIn &&& 0x0000FFFF = 0x00000003
  ext i hi
  interval_cases i <;> simp [packFields]

theorem init : Statement .init := by unfold Statement; decide

theorem frame : Statement .frame := by unfold Statement; decide

theorem run : Statement .run := by unfold Statement; decide

theorem stop : Statement .stop := by unfold Statement; decide

end Sys2Proof.Laws.MaskMatch
end

