-- ==== Sys2Proof/Laws/Statistics.lean ====
section
/-! SUPPORT. What the statistics' folds, `enc32` and concatenation give, said once. -/

namespace Sys2Proof.Machine

/-- A concatenation as a sum. -/
theorem toNat_append_eq {m n : Nat} (x : BitVec m) (y : BitVec n) : (x ++ y).toNat = x.toNat * 2 ^ n + y.toNat := by
  rw [BitVec.toNat_append, ← Nat.shiftLeft_add_eq_or_of_lt y.isLt, Nat.shiftLeft_eq]

@[simp] theorem toNat_ofBool_eq (b : Bool) : (BitVec.ofBool b).toNat = b.toNat := by cases b <;> rfl

/-- `enc32` keeps the value of an integer of 32 bits. -/
theorem enc32_toInt {x : Int} (h : -2 ^ 31 ≤ x ∧ x < 2 ^ 31) : (enc32 x).toInt = x := by
  unfold enc32
  rw [BitVec.toInt_ofInt, Int.bmod]
  omega

/-- The fold of `minOf` gives a value of the list, and none is less. -/
theorem foldl_min_spec (l : List Int) :
    ∀ a : Int, (l.foldl min a = a ∨ l.foldl min a ∈ l) ∧ l.foldl min a ≤ a ∧ ∀ q ∈ l, l.foldl min a ≤ q := by
  induction l with
  | nil => simp
  | cons b l ih =>
      intro a
      obtain ⟨h₁, h₂, h₃⟩ := ih (min a b)
      simp only [List.foldl_cons, List.mem_cons]
      refine ⟨?_, by omega, ?_⟩
      · rcases h₁ with h₁ | h₁
        · rw [h₁]; omega
        · exact .inr (.inr h₁)
      · rintro q (rfl | hq)
        · omega
        · exact h₃ q hq

/-- The fold of `maxOf` gives a value of the list, and none is greater. -/
theorem foldl_max_spec (l : List Int) :
    ∀ a : Int, (l.foldl max a = a ∨ l.foldl max a ∈ l) ∧ a ≤ l.foldl max a ∧ ∀ q ∈ l, q ≤ l.foldl max a := by
  induction l with
  | nil => simp
  | cons b l ih =>
      intro a
      obtain ⟨h₁, h₂, h₃⟩ := ih (max a b)
      simp only [List.foldl_cons, List.mem_cons]
      refine ⟨?_, by omega, ?_⟩
      · rcases h₁ with h₁ | h₁
        · rw [h₁]; omega
        · exact .inr (.inr h₁)
      · rintro q (rfl | hq)
        · omega
        · exact h₃ q hq

theorem minOf_spec {l : List Int} (hl : l ≠ []) : minOf l ∈ l ∧ ∀ q ∈ l, minOf l ≤ q := by
  cases l with
  | nil => exact absurd rfl hl
  | cons a l =>
      obtain ⟨h₁, h₂, h₃⟩ := foldl_min_spec l a
      refine ⟨List.mem_cons.mpr h₁, ?_⟩
      rintro q (_ | ⟨_, hq⟩)
      · exact h₂
      · exact h₃ q hq

theorem maxOf_spec {l : List Int} (hl : l ≠ []) : maxOf l ∈ l ∧ ∀ q ∈ l, q ≤ maxOf l := by
  cases l with
  | nil => exact absurd rfl hl
  | cons a l =>
      obtain ⟨h₁, h₂, h₃⟩ := foldl_max_spec l a
      refine ⟨List.mem_cons.mpr h₁, ?_⟩
      rintro q (_ | ⟨_, hq⟩)
      · exact h₂
      · exact h₃ q hq

theorem decodedPixels_ne_nil (pix : Vector Pixel 64) : decodedPixels pix ≠ [] := by
  intro h
  have := decodedPixels_length pix
  rw [h] at this
  exact absurd this (by decide)

/-- A value is decoded from the buffer exactly if some pixel decodes to it. -/
theorem mem_decodedPixels_iff (pix : Vector Pixel 64) (q : Int) :
    q ∈ decodedPixels pix ↔ ∃ i : Fin 64, decodeRaw pix[i].raw = q := by
  unfold decodedPixels
  constructor
  · intro h
    obtain ⟨p, hp, rfl⟩ := List.mem_map.mp h
    obtain ⟨i, hi, rfl⟩ := List.mem_iff_getElem.mp hp
    have hi' : i < 64 := by simpa using hi
    exact ⟨⟨i, hi'⟩, by simp⟩
  · rintro ⟨i, rfl⟩
    refine List.mem_map.mpr ⟨pix[i], ?_, rfl⟩
    exact Vector.mem_toList_iff.mpr (Vector.getElem_mem i.isLt)

end Sys2Proof.Machine
end

