-- ==== Sys2Proof/Tests/Slice0.lean ====
section
/-! SUPPORT. The model's own tests. Expected results are the vectors of spec/95_test_vectors.md (the vector's number stands
in the docstring) or the rule named; then, for each statement with hypotheses, a witness that meets them. -/

open Sys2Proof Sys2Proof.Machine

namespace Sys2Proof.Tests

/-! ### States to test on -/

/-- A build with a finite bus timeout. -/
def build : Config := ⟨0x69, false, 1 / 10, 1, 1000000, 100000, some (1 / 100)⟩

/-- The reset state of `build`, with a pixel buffer written out. -/
def idle : State := { State.resetOf build 0 with pix := Vector.replicate 64 ⟨0, 0⟩ }

/-- INIT running, at `q`. -/
def inInit (q : SeqStep) : State := { idle with seqState := .init, seqStep := q, latch := ⟨4, 0, 0⟩ }

/-- FRAME or RUN at the step that reads pixel `k`, with the oracle's answers `rs`. -/
def inFrame (q : SeqState) (k : Nat) (rs : List ReadReply) : State :=
  { idle with
    seqState    := q
    seqStep     := .read
    k           := k
    latch       := ⟨if q = .frame then 5 else 6, 0, 0⟩
    initDone    := true
    readReplies := rs }

/-- FRAME or RUN at its completion step, on a buffer with one pixel 0x0004 at index 27 (vector F1). -/
def atStats (q : SeqState) : State :=
  { inFrame q 64 [] with seqStep := .stats, pix := (Vector.replicate 64 ⟨0, 7⟩).set 27 ⟨4, 7⟩ }

/-- After the fatal error of vector B7. -/
def halted : State :=
  { idle with seqState := .halted, fatal := true, errCode := .addrNack, errInfo := ⟨0x05, false, 1⟩, latch := ⟨1, 5, 0x0E⟩ }

/-- The host about to run the line `l`. -/
def hosting (l : HostLine) (s : State) : State := { s with schedule := [.host], program := [l] }

/-- `s` after its step `o`, if that is a next state. -/
def after (o : Host.Outcome State Fault Refusal) : Option State :=
  match o with
  | .next t    => some t
  | .fault _   => none
  | .refused _ => none

/-- STATUS after `o`. -/
def statusAfter (o : Host.Outcome State Fault Refusal) : Option Word := (after o).map fun t => readReg t 0x03

/-- The register at byte offset `off` after the host has written `w` at byte offset `at`. -/
def writeThenRead (offW : Nat) (w : Word) (offR : Nat) (s : State) : Option Word :=
  (after (step (hosting (.write (wordOffset offW) w) s))).map fun t => readReg t (wordOffset offR)

/-! ### Ill-formed source lines (30_encoding.md R108, R109) -/

theorem test_wf_wrbyte_reg : (AsmCmd.wrbyte 0x100 0).wellFormed = false := by decide
theorem test_wf_wrbyte_data : (AsmCmd.wrbyte 0 0x100).wellFormed = false := by decide
theorem test_wf_rdword_reg : (AsmCmd.rdword 0x100).wellFormed = false := by decide
theorem test_wf_decode_raw : (AsmCmd.decode 0x10000).wellFormed = false := by decide
theorem test_wf_rdpix_index : (AsmCmd.rdpix 64).wellFormed = false := by decide
theorem test_wf_write_offset : (AsmLine.write 0x400 0).wellFormed = false := by decide
theorem test_wf_write_value : (AsmLine.write 0 0x100000000).wellFormed = false := by decide
theorem test_wf_command : (AsmLine.writeCmd (.rdpix 64)).wellFormed = false := by decide
theorem test_wf_read_offset : (AsmLine.read 0x400).wellFormed = false := by decide
theorem test_wf_poll_offset : (AsmLine.poll 0x400 0 0).wellFormed = false := by decide
theorem test_wf_poll_mask : (AsmLine.poll 0 0x100000000 0).wellFormed = false := by decide
theorem test_wf_poll_value : (AsmLine.poll 0 0 0x100000000).wellFormed = false := by decide
theorem test_wf_tick_zero : (AsmLine.tick 0).wellFormed = false := by decide

/-- §3, the assembler vectors. -/
theorem test_assemble :
    ([AsmCmd.nop, .setnormal, .clrflags, .devreset, .rdpix 0, .rdpix 27, .rdpix 63, .decode 0x0800, .init, .frame, .run,
        .stop].map fun c => (assembleCmd c).map encode) =
      [0x00000000, 0x00000001, 0x000E0501, 0x003F0101, 0x00008002, 0x0000B602, 0x0000FE02, 0x08000003, 0x00000004,
        0x00000005, 0x00000006, 0x00000007].map some ∧
    assembleCmd (.wrbyte 0x100 0) = none := by decide

theorem test_assemble_lines :
    assembleLine (.writeCmd .init) = some (.inl (.write 2 0x00000004)) ∧
    assembleLine (.poll 0x00C 0x48 0x40) = some (.inl (.poll 3 0x48 0x40)) := by decide

/-! ### Decoding: one word of each command, written from 30_encoding.md R100-R102 (vectors E1-E23) -/

theorem test_decode_nop : decodeWord 0b00000000000000000000000000000000 = .ok .nop := by decide
theorem test_decode_wrbyte : decodeWord 0b00000000000011100000010100000001 = .ok (.wrbyte 0x05 0x0E) := by decide
theorem test_decode_rdword : decodeWord 0b00000000000000001111111000000010 = .ok (.rdword 0xFE) := by decide
theorem test_decode_decode : decodeWord 0b11111000000000000000000000000011 = .ok (.decode 0xF800) := by decide
theorem test_decode_init : decodeWord 0b00000000000000000000000000000100 = .ok .init := by decide
theorem test_decode_frame : decodeWord 0b00000000000000000000000000000101 = .ok .frame := by decide
theorem test_decode_run : decodeWord 0b00000000000000000000000000000110 = .ok .run := by decide
theorem test_decode_stop : decodeWord 0b00000000000000000000000000000111 = .ok .stop := by decide

theorem test_decode_rejections :
    [0x00000008, 0x0000000F, 0x00000018].map decodeWord = List.replicate 3 (.error .illegalOp) ∧
    [0x00000010, 0x01000001, 0x00010002, 0x00000103, 0x00008005].map decodeWord =
      List.replicate 5 (.error .reserved) := by decide

theorem test_decode_table_word :
    decodeTableWord 32 0x000E0501 = some (.wrbyte 0x05 0x0E) ∧ decodeTableWord 32 0x18 = none ∧
    decodeTableWord 64 0 = none := by decide

/-- Each command's word runs as the first step after reset; FRAME and RUN raise NOT_INIT (E10, E11). -/
theorem test_first_step :
    ([0x0, 0x000E0501, 0x8002, 0x08000003, 0x4, 0x5, 0x6, 0x7].map fun w =>
      statusAfter (step (State.reset.withFetchWord 32 w))) =
      [0x00000000, 0x0000000A, 0x0000000A, 0x00000040, 0x00000009, 0x00040100, 0x00040100, 0x00000000].map some := by
  decide

/-! ### The commands -/

/-- E16. -/
theorem test_nop_busy : statusAfter (exec .nop (inInit .settle1)) = some 0x00000009 := by decide

/-- B1. -/
theorem test_wrbyte_ok :
    let s := sequencerStep
      { idle with seqState := .prim, seqStep := .xfer, latch := latchOf (.wrbyte 0x05 0x0E), writeReplies := [.ack] }
    readReg s 0x03 = 0x00000040 ∧ s.wires =
      [some [.start, .byte .block 0xD2, .ack .target, .byte .block 0x05, .ack .target, .byte .block 0x0E, .ack .target,
        .stop]] := by decide

/-- B8. -/
theorem test_wrbyte_fails :
    let s := sequencerStep
      { idle with seqState := .prim, seqStep := .xfer, latch := latchOf (.wrbyte 0x05 0x0E), writeReplies := [.dataNack] }
    readReg s 0x03 = 0x00003206 ∧ readReg s 0x04 = 0x00001005 ∧ s.wires =
      [some [.start, .byte .block 0xD2, .ack .target, .byte .block 0x05, .ack .target, .byte .block 0x0E, .nack, .stop]] := by decide

/-- B4. -/
theorem test_rdword_swapped :
    let s := sequencerStep
      { idle with
        seqState := .prim, seqStep := .xfer, latch := latchOf (.rdword 0x80), config := ⟨false, true, 0x69⟩
        readReplies := [.ack 0x08 0x00] }
    readReg s 0x05 = 0x00000800 ∧ readReg s 0x06 = 0xFFFFF800 ∧ readReg s 0x07 = 0xC4000000 ∧ s.wires =
      [some [.start, .byte .block 0xD2, .ack .target, .byte .block 0x80, .ack .target, .restart, .byte .block 0xD3,
        .ack .target, .byte .target 0x08, .ack .block, .byte .target 0x00, .nack, .stop]] := by decide

/-- B9 and B12. -/
theorem test_rdword_fails :
    let s (reg : Byte) (r : ReadReply) := sequencerStep
      { idle with seqState := .prim, seqStep := .xfer, latch := latchOf (.rdword reg), readReplies := [r], raw := 0x1234 }
    readReg (s 0x81 .raddrNack) 0x03 = 0x00004206 ∧ readReg (s 0x81 .raddrNack) 0x04 = 0x00002181 ∧
    readReg (s 0x81 .raddrNack) 0x05 = 0x1234 ∧ readReg (s 0x80 .sclHeld) 0x03 = 0x00006206 := by decide

/-- §2, the row of 0xF800 (program P1); SWAP is not applied (42_decoder.md R160). -/
theorem test_decode_command :
    (after (exec (.decode 0xF800) { idle with config := ⟨false, true, 0x69⟩ })).map (fun t =>
      [readReg t 0x03, readReg t 0x05, readReg t 0x06, readReg t 0x07]) =
      some [0x00000040, 0x0000F800, 0x0000E800, 0x46680000] := by decide

/-- E14. -/
theorem test_decode_busy :
    (after (exec (.decode 5) (inInit .settle1))).map (fun t => [readReg t 0x03, readReg t 0x05]) =
      some [0x00030109, 0] := by decide

/-- I8. -/
theorem test_init_again : statusAfter (exec .init { idle with initDone := true }) = some 0x00000009 := by decide

/-- I3. -/
theorem test_init_write_fails :
    let s := sequencerStep { inInit .wSclr with writeReplies := [.dataNack] }
    readReg s 0x03 = 0x00003206 ∧ readReg s 0x04 = 0x00004005 ∧
    s.trace = [.write 0x69 0x05 0x0E (.fail .dataNack)] := by decide

/-- A2. -/
theorem test_frame_read_fails :
    let s := sequencerStep (inFrame .frame 5 [.sclHeld])
    readReg s 0x03 = 0x00006216 ∧ readReg s 0x04 = 0x0000518A ∧ readReg s 0x08 = 0 := by decide

/-- P3, its last step, and A8. -/
theorem test_frame_completes :
    let s := sequencerStep { atStats .frame with frameCnt := 0xFFFFFFFF }
    [0x03, 0x08, 0x09, 0x0A, 0x0B, 0x0C, 0x0D, 0x0E, 0x0F, 0x10, 0x5B, 0x9B, 0xDB, 0x40].map (readReg s) =
      [0x00000070, 0, 0, 4, 4, 2, 0x66, 6, 0, 0x3F800000, 0x00040004, 4, 0x3F800000, 0] := by decide +kernel

/-- E11 and the start of P5. -/
theorem test_run_start :
    statusAfter (exec .run idle) = some 0x00040100 ∧
    statusAfter (exec .run { idle with initDone := true }) = some 0x0000001C := by decide

/-- A11, and the RUN_WAIT step of P5. -/
theorem test_run_wait :
    let s := { inFrame .runWait 64 [] with seqStep := .wait, frameValid := true, done := true, waitUntil := 1 }
    readReg (sequencerStep s) 0x03 = 0x0000007D ∧ readReg (sequencerStep { s with now := 1 }) 0x03 = 0x0000005C := by decide

/-- E15. -/
theorem test_stop_init :
    (after (exec .stop (inInit .settle1))).map (fun t => [readReg t 0x03, readReg (sequencerStep t) 0x03]) =
      some [0x00000009, 0x00000080] := by decide

/-- E12 and the HALTED clause of R177. -/
theorem test_stop_idle_halted :
    statusAfter (exec .stop idle) = some 0x00000000 ∧ statusAfter (exec .stop halted) = some 0x00051306 := by decide

/-! ### Arithmetic -/

/-- §2, the column q. -/
theorem test_decode_values :
    [0x0000, 0x0001, 0x07FF, 0x0800, 0x0801, 0x0F38, 0x0FFC, 0x0FFF, 0x1000, 0x1001, 0x17FF, 0x1800, 0x8000, 0xF800,
      0xFFFF].map decodeRaw =
    [0, 1, 2047, -2048, -2047, -200, -4, -1, 0, 1, 2047, 2048, 28672, 59392, 61439] := by decide

/-- §2, the column RES_F. -/
theorem test_float_patterns :
    [0, 1, 4, 100, 400, 2047, -2048, -2047, -200, -4, -1, 2048, 28672, 59392, 61439].map f32 =
    [0x00000000, 0x3E800000, 0x3F800000, 0x41C80000, 0x42C80000, 0x43FFE000, 0xC4000000, 0xC3FFE000, 0xC2480000,
      0xBF800000, 0xBE800000, 0x44000000, 0x45E00000, 0x46680000, 0x466FFF00] := by decide

/-- §6, the rounding vectors. -/
theorem test_rounding :
    [0, 4, 32, 96, -32, -96, 2016, 5528, 63, -63].map averageC = [0, 2, 12, 38, -12, -38, 788, 2159, 25, -25] := by decide

/-- The six results of §6 and the bands of some values. -/
def statsRow (qs : List Int) (shown : List Int) : List Int × List Nat :=
  let st := frameStats qs
  ([st.minQ, st.maxQ, st.sum, st.avgC, st.hiU, st.lowU], shown.map fun q => (bandOf st q).code.toNat)

/-- F6. -/
theorem test_stats_f6 :
    statsRow (List.replicate 40 80 ++ List.replicate 23 96 ++ [120]) [80, 96, 120] =
      ([80, 120, 5528, 2159, 5159, 4477], [0, 2, 4]) := by decide +kernel

/-- F3. -/
theorem test_stats_f3 :
    statsRow ((List.range 64).map Int.ofNat) [0, 1, 47, 48, 62, 63] =
      ([0, 63, 2016, 788, 2363, 2364], [0, 1, 1, 3, 3, 4]) := by decide +kernel

/-- F7. -/
theorem test_stats_f7 :
    statsRow (List.replicate 32 (-1) ++ List.replicate 32 0) [-1, 0] = ([-1, 0, -32, -12, -12, -11], [0, 4]) := by
  decide +kernel

/-- F11. -/
theorem test_stats_f11 :
    statsRow (-2048 :: List.replicate 63 61439) [-2048, 61439] =
      ([-2048, 61439, 3868609, 1511175, 3047150, 4584725], [0, 4]) := by decide +kernel

/-- F12, F13 and F14: exact ties with the thresholds. -/
theorem test_stats_ties :
    statsRow (List.replicate 39 0 ++ List.replicate 24 5 ++ [8]) [0, 5, 8] = ([0, 8, 128, 50, 250, 150], [0, 3, 4]) ∧
    statsRow (List.replicate 23 0 ++ List.replicate 40 3 ++ [8]) [0, 3, 8] = ([0, 8, 128, 50, 250, 150], [0, 1, 4]) ∧
    statsRow (List.replicate 22 0 ++ List.replicate 41 3 ++ [4]) [0, 3, 4] = ([0, 4, 127, 50, 150, 150], [0, 3, 4]) := by
  decide +kernel

/-! ### Host access, cancel, reset -/

/-- H1 and H2. -/
theorem test_reset_reads : readReg State.reset 0x00 = 0x414D4738 ∧ readReg State.reset 0x01 = 0x00006900 := by decide

/-- H3, H4 and H5. -/
theorem test_config_writes :
    writeThenRead 0x004 0xFFFFFFFF 0x004 idle = some 0x00007F03 ∧
    writeThenRead 0x004 0x00000002 0x004 idle = some 0x00000002 ∧
    writeThenRead 0x004 0x00006800 0x004 (inInit .settle1) = some 0x00006900 ∧
    writeThenRead 0x004 0x00006800 0x00C (inInit .settle1) = some 0x00030109 := by decide

/-- H8, H9 and H10. -/
theorem test_status_clears :
    let s := { idle with initDone := true, done := true, cancelled := true, cmdErr := true, cmdCause := .notInit }
    readReg s 0x03 = 0x000401D0 ∧ writeThenRead 0x00C 0x00000040 0x00C s = some 0x00040190 ∧
    writeThenRead 0x00C 0x00000180 0x00C { s with done := false } = some 0x00000010 ∧
    writeThenRead 0x00C 0xFFFFFFFF 0x00C halted = some 0x00001206 := by decide

/-- H11 and E20: a read-only register, and the first cause kept. -/
theorem test_other_writes :
    writeThenRead 0x014 0x1234 0x014 idle = some 0 ∧
    writeThenRead 0x008 0x8 0x00C { idle with cmdErr := true, cmdCause := .notInit } = some 0x00040100 := by decide

/-- B11 and B12 on the wires (20_memory.md R82). SETNORMAL at 0x69 sends the ones of 0xD2 and no others, so SDA can be lost
in START, in four bits of that byte, and in STOP. Lost in the first of them it ends there, low while SCL is high, and the
block releases both wires and attempts a STOP. -/
theorem test_cut_wires :
    (cuts .sdaLost WireSym.losses (writeSyms 0x69 0x00 0x00)).map (fun ws => ws.length) = [1, 2, 2, 2, 2, 8] ∧
    (WireSym.sdaLost (.byte .block 0xD2) 1).levels = [(false, true), (true, false)] ∧
    (WireSym.sclStuck (.ack .target) 1).levels = [(false, false), (false, false)] ∧
    (WireSym.stopAttempt (Vector.replicate 4 (false, false))).levels =
      [(true, true), (false, false), (true, false), (true, true)] := by decide

/-- A6, A7 and P7: an edge while idle, a level that is no edge, an edge while busy. -/
theorem test_cancel_input :
    (sampleCancel true idle).cancelPend = false ∧
    (sampleCancel true { inInit .settle1 with cancelPrev := true }).cancelPend = false ∧
    readReg (sequencerStep (sampleCancel true (inInit .settle1))) 0x03 = 0x00000080 := by decide

/-- `s` with its transaction in progress and a cancel requested since (43_acquisition.md R181). -/
def canceling (s : State) : State := { s with onBus := true, cancelPend := true }

/-- R181, a STOP while RDWORD's transaction is in progress: it starts by an event, RAW is written, the cancel step follows
and DONE is not set; and with a NACK the STATUS of vector B9, without CMD_ERR and CANCELLED. -/
theorem test_cancel_in_rdword :
    let s := { idle with
               seqState := .prim, seqStep := .xfer, latch := latchOf (.rdword 0x81), readReplies := [.ack 0x04 0x00] }
    runEvent .busStart s = .next { s with onBus := true } ∧
    exec .stop { s with onBus := true } = .next (canceling s) ∧
    readReg (sequencerStep (canceling s)) 0x05 = 0x00000004 ∧ readReg (sequencerStep (canceling s)) 0x03 = 0x0000000A ∧
    readReg (sequencerStep (sequencerStep (canceling s))) 0x03 = 0x00000080 ∧
    readReg (sequencerStep { canceling s with readReplies := [.raddrNack] }) 0x03 = 0x00004206 :=
  ⟨rfl, rfl, by decide, by decide, by decide, by decide⟩

/-- R181 in FRAME: the pixel in hand is written, and the cancel step follows. -/
theorem test_cancel_in_read :
    let s := sequencerStep (canceling (inFrame .frame 63 [.ack 0x04 0x00]))
    readReg s 0x7F = 0x00000004 ∧ readReg s 0x03 = 0x0000001B ∧ readReg (sequencerStep s) 0x03 = 0x00000090 := by decide

/-- A9 and A10. -/
theorem test_irq :
    irqO { idle with config := ⟨true, false, 0x69⟩, done := true } = true ∧ irqO { idle with done := true } = false ∧
    irqO { halted with config := ⟨true, false, 0x69⟩ } = true ∧ irqO halted = false := by decide

/-- A12. -/
theorem test_reset_in_frame :
    let s := applyReset (inFrame .frame 5 [])
    readReg s 0x03 = 0 ∧ s.k = 0 ∧ s.seqStep = .none ∧ s.latch = ⟨0, 0, 0⟩ := by decide

/-- The levels of a START and of a byte (20_memory.md R77). -/
theorem test_levels :
    WireSym.start.levels = [(true, true), (true, false)] ∧ (WireSym.byte .block 0x80).levels.length = 24 ∧
    ((WireSym.byte .target 0x80).levels.filter fun l => l.1).map (fun l => l.2) = true :: List.replicate 7 false := by decide

/-- Vector B7, "S D2 N P": the block drives the START, the byte and the STOP, leaves SDA alone in the ninth bit, and
releases both wires. -/
theorem test_block_pulls :
    (((BusRecord.write 0x69 0x05 0x0E (.fail .addrNack)).blockPulls 1).map fun ps =>
      (ps.length, ps.take 3, ps.drop 26)) =
      some (32, [(false, false), (false, true), (true, false)],
        [(true, false), (false, false), (true, false), (true, true), (false, true), (false, false)]) := by decide

/-! ### Witnesses: for each statement with hypotheses, values that meet them, each clause at its boundary -/

/-- The state after a step. -/
def stepped (s : State) : State :=
  match step s with
  | .next t    => t
  | .fault _   => s
  | .refused _ => s

/-- `s` with the one event `e` to come. -/
def scheduled (e : Event) (s : State) : State := { s with schedule := [e] }

/-- `s` with the host's lists moved on. -/
def moved (s : State) : State := { s with schedule := [], program := [] }

theorem writes_hosting (a : BitVec 8) (w : Word) (s : State) :
    (hosting (.write a w) s).Writes a w (moved s) := ⟨[], [], rfl, rfl, rfl⟩

/-- Also the witness of the clauses of the legal words' operands. -/
theorem wit_every_legal_word_is_an_encoding :
    decodeWord 0x0000FE02 = .ok (.rdword 0xFE) ∧ decodeWord 0x00FFFF01 = .ok (.wrbyte 0xFF 0xFF) ∧
    decodeWord 0xFFFF0003 = .ok (.decode 0xFFFF) := by decide

theorem wit_step_runs_the_decoded_command :
    let s := hosting (.write 2 0x000E0501) idle
    s.rstN = true ∧ s.Writes 2 0x000E0501 (moved idle) ∧ decodeWord 0x000E0501 = .ok (.wrbyte 0x05 0x0E) :=
  ⟨rfl, writes_hosting _ _ _, by decide⟩

theorem wit_rejected_word :
    (hosting (.write 2 0x8) idle).rstN = true ∧ (hosting (.write 2 0x8) idle).Writes 2 0x8 (moved idle) ∧
    8 ≤ (0x8 : Word).toNat % 16 ∧
    (hosting (.write 2 0x17) idle).Writes 2 0x17 (moved idle) ∧ (0x17 : Word).toNat % 16 < 8 ∧
    (0x17 : Word) &&& cmdMask ((0x17 : Word).toNat % 16) ≠ cmdMatch ((0x17 : Word).toNat % 16) :=
  ⟨rfl, writes_hosting _ _ _, by decide, writes_hosting _ _ _, by decide, by decide⟩

theorem wit_nop_changes_nothing :
    let s := hosting (.write 2 0x10) idle
    s.rstN = true ∧ s.Writes 2 0x10 (moved idle) ∧ (0x10 : Word).toNat % 16 = 0 ∧ (0x10 : Word) ≠ 0 :=
  ⟨rfl, writes_hosting _ _ _, by decide, by decide⟩

theorem wit_idle_commands : idle.seqState = .idle ∧ idle.Undisturbed ∧ idle.initDone = false := ⟨rfl, ⟨rfl, rfl, rfl⟩, rfl⟩

theorem wit_wrbyte_writes_one_device_byte :
    let s := { idle with writeReplies := [.ack] }
    s.seqState = .idle ∧ s.Undisturbed ∧ s.writeReplies = .ack :: [] := ⟨rfl, ⟨rfl, rfl, rfl⟩, rfl⟩

theorem wit_rdword_reads_one_device_word :
    let s := { idle with readReplies := [.ack 8 0] }
    s.seqState = .idle ∧ s.Undisturbed ∧ s.readReplies = .ack 8 0 :: [] ∧
    (0x0008 : Half) = (if s.config.swap then (8 : Byte) ++ (0 : Byte) else (0 : Byte) ++ (8 : Byte)) :=
  ⟨rfl, ⟨rfl, rfl, rfl⟩, rfl, by decide⟩

theorem wit_acquisition_commands_start :
    let s := { idle with initDone := true }
    s.seqState = .idle ∧ s.initDone = true := ⟨rfl, rfl⟩

theorem wit_acquisition_needs_init : idle.seqState = .idle ∧ idle.initDone = false := ⟨rfl, rfl⟩

theorem wit_busy_and_halted_reject :
    (inInit .settle1).busy = true ∧ Instr.frame ≠ .nop ∧ Instr.frame ≠ .stop ∧ halted.seqState = .halted := by decide

theorem wit_stop_requests_a_cancel :
    (inInit .settle1).busy = true ∧ idle.seqState = .idle ∧ halted.seqState = .halted ∧
    (let s := { inInit .settle1 with cancelPend := true }
     s.busy = true ∧ s.cancelPend = true) ∧
    (let s := { inFrame .runWait 64 [] with seqStep := .wait }
     s.seqState = .runWait ∧ s.rstN = true ∧ s.hung = false) ∧
    (let s := hosting (.write 2 0x17) idle
     s.rstN = true ∧ s.Writes 2 0x17 (moved idle) ∧ (0x17 : Word).toNat % 16 = 7 ∧ (0x17 : Word) ≠ 7) :=
  ⟨rfl, rfl, rfl, ⟨rfl, rfl⟩, ⟨rfl, rfl, rfl⟩, rfl, writes_hosting _ _ _, by decide, by decide⟩

theorem wit_command_issue_frame :
    exec .nop idle = .next idle ∧ (∀ v, Instr.nop ≠ .decode v) ∧ Instr.nop ≠ .init ∧ Instr.nop ≠ .frame ∧
    Instr.nop ≠ .run ∧ Instr.nop ≠ .stop :=
  ⟨rfl, fun _ => nofun, nofun, nofun, nofun, nofun⟩

theorem wit_sequencer_step_frame :
    idle.seqState ≠ .prim ∧ idle.seqState ≠ .frame ∧ idle.seqState ≠ .runFrame ∧ idle.seqState ≠ .init ∧
    (1 : Fin 64).val ≠ idle.k := by decide

theorem wit_settle_wait :
    let s (q : SeqStep) := { inInit q with waitUntil := 1 }
    (s .settle1).seqState = .init ∧ ((s .settle1).seqStep = .settle1 ∨ (s .settle1).seqStep = .settle2) ∧
    ((s .settle2).seqStep = .settle1 ∨ (s .settle2).seqStep = .settle2) ∧ (s .settle1).cancelPend = false ∧
    (s .settle1).now < (s .settle1).waitUntil := by decide

theorem wit_init_runs_its_sequence :
    let s := { idle with
               schedule := [.host, .timer (1 / 10), .sequencer, .sequencer, .sequencer, .sequencer, .timer (1 / 10),
                 .sequencer]
               program := [.write 2 0x00000004], writeReplies := [.ack, .ack, .ack] }
    s.seqState = .idle ∧ s.Undisturbed ∧ (0 : Rat) < 1 / 10 ∧ s.cfg.settleTime ≤ 1 / 10 ∧
    s.schedule = .host :: .timer (1 / 10) :: .sequencer :: .sequencer :: .sequencer :: .sequencer :: .timer (1 / 10) ::
      .sequencer :: [] ∧
    s.program = .write 2 0x00000004 :: [] ∧ s.writeReplies = .ack :: .ack :: .ack :: [] :=
  ⟨rfl, ⟨rfl, rfl, rfl⟩, by norm_num, by norm_num [idle, State.resetOf, build], rfl, rfl, rfl⟩

theorem wit_read_step :
    let s (q : SeqState) (k : Nat) := inFrame q k [.ack 1 2]
    ((s .frame 0).seqState = .frame ∨ (s .frame 0).seqState = .runFrame) ∧
    ((s .runFrame 63).seqState = .frame ∨ (s .runFrame 63).seqState = .runFrame) ∧ (s .runFrame 63).seqStep = .read ∧
    (s .runFrame 63).k < 64 ∧ (s .runFrame 63).StepDue ∧ (s .runFrame 63).readReplies = .ack 1 2 :: [] := by decide

theorem wit_stats_step :
    ((atStats .frame).seqState = .frame ∨ (atStats .frame).seqState = .runFrame) ∧
    (atStats .runFrame).seqState = .runFrame ∧ (atStats .frame).seqState = .frame ∧ (atStats .frame).seqStep = .stats ∧
    (atStats .frame).Undisturbed := by decide

theorem wit_frame_runs_to_completion :
    let s := { idle with
               initDone    := true
               schedule    := .host :: List.replicate 65 .sequencer
               program     := [.write 2 0x00000005]
               readReplies := List.ofFn fun _ : Fin 64 => ReadReply.ack 4 0 }
    s.seqState = .idle ∧ s.Undisturbed ∧ s.initDone = true ∧
    s.schedule = .host :: (List.replicate 65 .sequencer ++ []) ∧ s.program = .write 2 0x00000005 :: [] ∧
    s.readReplies = (List.ofFn fun _ : Fin 64 => ReadReply.ack 4 0) ++ [] :=
  ⟨rfl, ⟨rfl, rfl, rfl⟩, rfl, by rw [List.append_nil], rfl, by rw [List.append_nil]⟩

theorem wit_run_wait :
    let s (t : Rat) := { inFrame .runWait 64 [] with seqStep := .wait, waitUntil := t }
    (s 0).seqState = .runWait ∧ (s 0).Undisturbed ∧ (s 0).waitUntil ≤ (s 0).now ∧ (s 1).now < (s 1).waitUntil := by decide

theorem wit_cancel_is_taken_next :
    let s := { inInit .settle1 with cancelPend := true, schedule := [.cancelSample true] }
    s.rstN = true ∧ s.busy = true ∧ s.cancelPend = true ∧ s.hung = false ∧ s.inTransaction = false ∧
    s.schedule = .cancelSample true :: [] :=
  ⟨rfl, rfl, rfl, rfl, rfl, rfl⟩

theorem wit_cancelled_follows :
    let s := scheduled .sequencer { inInit .settle1 with cancelPend := true }
    let r := hosting (.write 3 0x80) { idle with cancelled := true }
    step s = .next (stepped s) ∧ s.cancelled = false ∧ (stepped s).cancelled = true ∧
    step r = .next (stepped r) ∧ r.cancelled = true ∧ (stepped r).cancelled = false :=
  ⟨rfl, rfl, rfl, rfl, rfl, rfl⟩

theorem wit_failed_transaction :
    let r := inFrame .frame 5 [.regNack]
    let w := { inInit .wPctl with writeReplies := [.addrNack] }
    (true = true ∧ (sequencerStep r).trace = r.trace ++ [.read 0x69 0x8A (.fail .regNack)]) ∧
    (false = false ∧ ∃ d, (sequencerStep w).trace = w.trace ++ [.write 0x69 0x00 d (.fail .addrNack)]) :=
  ⟨⟨rfl, rfl⟩, rfl, 0x00, rfl⟩

/-- PRIM before the transfer of `i`. -/
def inPrim (i : Instr) : State := { idle with seqState := .prim, seqStep := .xfer, latch := latchOf i }

/-- `s` in a build with an infinite BUS_TIMEOUT. -/
def endless (s : State) : State := { s with cfg := { build with busTimeout := none } }

/-- Every place a transaction is issued from, READ at both ends of its range. -/
theorem wit_next_transactions :
    (inInit .wPctl).NextWrite 0x00 0x00 ∧ (inInit .wSclr).NextWrite 0x05 0x0E ∧ (inInit .wRst).NextWrite 0x01 0x3F ∧
    (inPrim (.wrbyte 0x12 0x34)).NextWrite 0x12 0x34 ∧ (inPrim (.rdword 0xFF)).NextRead 0xFF ∧
    (inFrame .frame 0 []).NextRead 0x80 ∧ (inFrame .runFrame 63 []).NextRead 0xFE :=
  ⟨by decide, by decide, by decide, by decide, by decide, by decide, by decide⟩

/-- A transaction in progress with a cancel pending: the clauses of R181. -/
theorem wit_cancel_in_progress :
    let i := canceling { inInit .wPctl with writeReplies := [.ack] }
    let w := canceling { inPrim (.wrbyte 0x05 0x0E) with writeReplies := [.ack] }
    let r := canceling { inPrim (.rdword 0x80) with readReplies := [.ack 8 0] }
    let f := canceling (inFrame .frame 0 [.ack 8 0])
    (i.rstN = true ∧ i.hung = false ∧ i.onBus = true ∧ i.cancelPend = true ∧ i.NextWrite 0x00 0x00 ∧
      i.writeReplies = .ack :: []) ∧
    (w.rstN = true ∧ w.hung = false ∧ w.onBus = true ∧ w.cancelPend = true ∧ w.NextWrite 0x05 0x0E ∧
      w.writeReplies = .ack :: []) ∧
    (r.rstN = true ∧ r.hung = false ∧ r.onBus = true ∧ r.cancelPend = true ∧ r.NextRead 0x80 ∧
      r.readReplies = .ack 8 0 :: [] ∧ r.seqState = .prim) ∧
    (f.StepDue ∧ f.NextRead 0x80 ∧ f.readReplies = .ack 8 0 :: []) :=
  ⟨by decide, by decide, by decide, by decide⟩

theorem wit_bus_start :
    let s := scheduled .busStart (inInit .wPctl)
    s.schedule = .busStart :: [] ∧ s.NextWrite 0x00 0x00 ∧ step s = .next (stepped s) ∧ s.onBus = false ∧
    (stepped s).onBus = true := ⟨rfl, by decide, rfl, rfl, rfl⟩

theorem wit_failing_answers :
    let w := { inInit .wSclr with writeReplies := [.dataNack] }
    let r := inFrame .frame 63 [.sclHeld]
    w.StepDue ∧ (canceling w).StepDue ∧ w.NextWrite 0x05 0x0E ∧ w.writeReplies = .dataNack :: [] ∧
    writeResult w.cfg.busTimeout .dataNack = .fail .dataNack ∧
    r.StepDue ∧ (canceling r).StepDue ∧ r.NextRead 0xFE ∧ r.readReplies = .sclHeld :: [] ∧
    readResult r.cfg.busTimeout .sclHeld = .fail .timeout := by decide

theorem wit_failure_codes :
    writeResult none .dataNack = .fail .dataNack ∧ readResult none .raddrNack = .fail .raddrNack ∧
    writeResult (some 1) .sclHeld = .fail .timeout ∧ readResult (some 1) .sclHeld = .fail .timeout := by decide

theorem wit_halted_is_final :
    let s := hosting (.write 2 0x3) halted
    s.seqState = .halted ∧ ¬ s.resetsNext ∧ step s = .next (stepped s) :=
  ⟨rfl, by decide, rfl⟩

theorem wit_held_bus :
    let s := scheduled .sequencer { inInit .wPctl with hung := true }
    s.hung = true ∧ ¬ s.resetsNext ∧ step s = .next (stepped s) :=
  ⟨rfl, by decide, rfl⟩

theorem wit_held_answers :
    let w := endless { inInit .wRst with writeReplies := [.sclHeld] }
    let r := endless (inFrame .runFrame 0 [.sclHeld])
    w.StepDue ∧ w.NextWrite 0x01 0x3F ∧ w.writeReplies = .sclHeld :: [] ∧
    writeResult w.cfg.busTimeout .sclHeld = .held ∧
    r.StepDue ∧ r.NextRead 0x80 ∧ r.readReplies = .sclHeld :: [] ∧ readResult r.cfg.busTimeout .sclHeld = .held := by
  decide

theorem wit_first_command_error :
    idle.cmdErr = false ∧ { idle with cmdErr := true, cmdCause := .busy }.cmdErr = true ∧
    (let s := raiseCmdErr .busy (hosting (.write 3 0x100) idle)
     s.rstN = true ∧ s.Writes 3 0x100 { s with schedule := [], program := [] } ∧ (0x100 : Word).getLsbD 8 = true ∧
       step s = .next (stepped s)) ∧
    (0 : BitVec 8) ≠ 3 :=
  ⟨rfl, rfl, ⟨rfl, ⟨[], [], rfl, rfl, rfl⟩, by decide, rfl⟩, by decide⟩

theorem wit_register_window :
    0x11 ≤ (0x11 : BitVec 8).toNat ∧ (0x11 : BitVec 8).toNat ≤ 0x3F ∧ 0x11 ≤ (0x3F : BitVec 8).toNat ∧
    (0x3F : BitVec 8).toNat ≤ 0x3F := by decide

theorem wit_config_writes :
    let s := hosting (.write 1 0x6801) idle
    let r := hosting (.write 1 0x6801) (inInit .settle1)
    s.rstN = true ∧ s.busy = false ∧ s.Writes 1 0x6801 (moved idle) ∧
    r.rstN = true ∧ r.busy = true ∧ r.Writes 1 0x6801 (moved (inInit .settle1)) :=
  ⟨rfl, rfl, writes_hosting _ _ _, rfl, rfl, writes_hosting _ _ _⟩

theorem wit_status_clears :
    let s := hosting (.write 3 0x1C0) idle
    s.rstN = true ∧ s.Writes 3 0x1C0 (moved idle) := ⟨rfl, writes_hosting _ _ _⟩

theorem wit_other_writes :
    (hosting (.write 0 1) idle).Writes 0 1 (moved idle) ∧ (0 : BitVec 8) ≠ 1 ∧ (0 : BitVec 8) ≠ 2 ∧ (0 : BitVec 8) ≠ 3 ∧
    (hosting (.write 4 1) idle).Writes 4 1 (moved idle) ∧
    (let s := { idle with rstN := false }
     (hosting (.write 2 4) s).Writes 2 4 (moved s) ∧ (hosting (.write 2 4) s).rstN = false) :=
  ⟨writes_hosting _ _ _, by decide, by decide, by decide, writes_hosting _ _ _, writes_hosting _ _ _, rfl⟩

theorem wit_host_reads :
    (hosting (.read 3) idle).schedule = .host :: [] ∧ (hosting (.read 3) idle).program = .read 3 :: [] ∧
    (hosting (.poll 3 0x48 0x40) idle).schedule = .host :: [] ∧
    (hosting (.poll 3 0x48 0x40) idle).program = .poll 3 0x48 0x40 :: [] := ⟨rfl, rfl, rfl, rfl⟩

theorem wit_config_is_constant :
    let s := hosting (.write 1 0) (inInit .settle1)
    s.busy = true ∧ ¬ s.resetsNext ∧ step s = .next (stepped s) := ⟨rfl, by decide, rfl⟩

theorem wit_reset :
    (scheduled (.resetLevel false) halted).schedule = .resetLevel false :: [] ∧
    (scheduled (.resetLevel true) { idle with rstN := false }).schedule = .resetLevel true :: [] ∧ 4 ≤ (4 : BitVec 8).toNat ∧
    (4 : BitVec 8).toNat ≤ 0x10 ∧ 4 ≤ (0x10 : BitVec 8).toNat ∧ (0x10 : BitVec 8).toNat ≤ 0x10 :=
  ⟨rfl, rfl, by decide, by decide, by decide, by decide⟩

theorem wit_timer : (0 : Rat) < 1 / 10 ∧ (scheduled (.timer (1 / 10)) idle).schedule = .timer (1 / 10) :: [] :=
  ⟨by norm_num, rfl⟩

theorem wit_address_bytes :
    (0xD2 : Byte).toNat = 2 * (0x69 : BitVec 7).toNat ∧ (0xD3 : Byte).toNat = 2 * (0x69 : BitVec 7).toNat + 1 := by decide

theorem wit_decode_ranges :
    (0x7FF : Half).toNat ≤ 0x7FF ∧ 0x800 ≤ (0x800 : Half).toNat ∧ (0x800 : Half).toNat ≤ 0xFFF ∧
    0x800 ≤ (0xFFF : Half).toNat ∧ (0xFFF : Half).toNat ≤ 0xFFF ∧ 0x1000 ≤ (0x1000 : Half).toNat ∧
    0x1000 ≤ (0xFFFF : Half).toNat := by decide

theorem wit_float_range :
    InDecodeRange (-2048) ∧ InDecodeRange 61439 ∧ (61439 : Int) ≠ 0 ∧ (-2048 : Int) ≠ 0 ∧ f32 61439 = f32 61439 := by decide

theorem wit_uniform_frame : ∀ i : Fin 64, (Vector.replicate 64 (⟨100, 0⟩ : Pixel))[i].raw = 100 := by decide

theorem wit_permuted_values : [(1 : Int), 2, 3].Perm [3, 1, 2] := by decide

theorem wit_invariant : (scheduled .sequencer idle).Inv where
  position     := trivial
  index        := by decide
  cancel       := by decide
  halted       := by decide
  errCode      := by decide
  errInfo      := by decide
  cmdCause     := by decide
  frame        := fun h => absurd h (by decide)
  acquiring    := by decide
  waiting      := by decide
  initialising := by decide
  initDone     := by decide
  extrema      := by decide
  transfer     := by decide
  progress     := by decide
  inReset      := fun h => absurd h (by decide)
  time         := by decide

/-- The state vector F1's frame leaves, in which FRAME_VALID is 1. -/
theorem wit_invariant_frame_valid : (completeFrame (atStats .frame)).Inv where
  position     := trivial
  index        := by decide
  cancel       := by decide
  halted       := by decide
  errCode      := by decide
  errInfo      := by decide
  cmdCause     := by decide
  frame        := fun _ => by decide +kernel
  acquiring    := by decide
  waiting      := by decide
  initialising := by decide
  initDone     := by decide
  extrema      := by decide +kernel
  transfer     := by decide
  progress     := by decide
  inReset      := fun h => absurd h (by decide)
  time         := by decide

theorem wit_invariant_step : step (scheduled .sequencer idle) = .next (stepped (scheduled .sequencer idle)) := rfl

theorem wit_is_reset : State.reset.IsReset := ⟨Config.defaults, 0, true, [], [], [], [], [], 0, rfl⟩

theorem wit_completion_writes_statistics :
    let s := scheduled .sequencer (atStats .frame)
    ¬ s.resetsNext ∧ step s = .next (stepped s) ∧ (stepped s).frameCnt ≠ s.frameCnt :=
  ⟨by decide, rfl, by decide⟩

theorem wit_transactions :
    let s := scheduled .sequencer { inInit .wPctl with writeReplies := [.ack] }
    step s = .next (stepped s) ∧ (stepped s).trace ≠ s.trace := ⟨rfl, by decide⟩

theorem wit_init_done :
    let s := scheduled .sequencer (inInit .settle2)
    let r := hosting (.write 2 4) { idle with initDone := true }
    step s = .next (stepped s) ∧ s.initDone = false ∧ (stepped s).initDone = true ∧
    step r = .next (stepped r) ∧ r.initDone = true ∧ (stepped r).initDone = false :=
  ⟨rfl, rfl, by decide, rfl, rfl, by decide⟩

/-- DONE set by DECODE, STATS, a transfer and SETTLE2, and cleared. -/
theorem wit_done :
    let s := hosting (.write 2 3) idle
    let r := scheduled .sequencer (atStats .runFrame)
    let x := scheduled .sequencer { inPrim (.wrbyte 0x05 0x0E) with writeReplies := [.ack] }
    let q := scheduled .sequencer (inInit .settle2)
    step s = .next (stepped s) ∧ s.done = false ∧ (stepped s).done = true ∧
    let c := hosting (.write 3 0x40) { idle with done := true }
    step r = .next (stepped r) ∧ r.done = false ∧ (stepped r).done = true ∧
    step x = .next (stepped x) ∧ x.done = false ∧ (stepped x).done = true ∧
    step q = .next (stepped q) ∧ q.done = false ∧ (stepped q).done = true ∧
    step c = .next (stepped c) ∧ c.done = true ∧ (stepped c).done = false :=
  ⟨rfl, rfl, by decide, rfl, rfl, by decide, rfl, rfl, by decide, rfl, rfl, by decide, rfl, rfl, by decide⟩

theorem wit_pseudo_ranges : (0 : Nat) ≤ 63 ∧ (63 : Nat) ≤ 63 ∧ (63 : Nat) < 64 := by decide

end Sys2Proof.Tests
end

section
/-! PROOFS. Scheduled steps, the host's view of the low registers, and what reset leaves
(70_reset_and_hazards.md R250-R253). -/

namespace Sys2Proof.Machine

/-! ### A scheduled step -/

theorem step_of_schedule {s : State} {e : Event} {es : List Event} (h : s.schedule = e :: es) :
    step s = runEvent e { s with schedule := es } := by
  rw [step_eq, takeEvent_cons s e es h]

theorem step_reset {s : State} {es : List Event} (h : s.schedule = .resetLevel false :: es) :
    step s = .next (applyReset { s with schedule := es }) := step_of_schedule h

theorem step_release {s : State} {es : List Event} (h : s.schedule = .resetLevel true :: es) :
    step s = .next { s with schedule := es, rstN := true } := step_of_schedule h

/-! ### The low registers -/

/-- Below the pixel views the host reads the table of 10_state.md R26. -/
theorem readReg_of_lt {a : BitVec 8} (s : State) (h : a.toNat < 64) : readReg s a = readLow s a.toNat := by
  simp [readReg, Nat.div_eq_of_lt h]

@[simp] theorem decodeRaw_zero : decodeRaw 0#16 = 0 := by decide

@[simp] theorem enc32_zero : enc32 0 = 0#32 := by decide

@[simp] theorem f32_zero : f32 0 = 0#32 := rfl

/-! ### The state after reset -/

/-- `irq_o` is 0 after reset (R253): CONFIG.IRQ_EN is 0. -/
theorem irqO_applyReset (s : State) : irqO (applyReset s) = false := by simp [irqO, applyReset, State.resetOf]

theorem statusWord_applyReset (s : State) : statusWord (applyReset s) = 0 := by
  simp [statusWord, applyReset, State.resetOf, State.busy, SeqState.busy, SeqState.code, ErrCode.code, CmdCause.code]

/-- ERRINFO, RAW, FRAME_CNT and the statistics are 0 after reset, and so are their views (R250). -/
theorem readLow_applyReset_eq_zero (s : State) {n : Nat} (hlo : 4 ≤ n) (hhi : n ≤ 0x10) :
    readLow (applyReset s) n = 0 := by
  interval_cases n <;> simp [readLow, applyReset, State.resetOf, errInfoWord]

/-- Settles O40: the step is `applyReset`, which writes each row of the table; the registers that read 0 are the lemmas
above. -/
theorem resetGivesTheTable : Obligations.ResetGivesTheTable := by
  unfold Obligations.ResetGivesTheTable
  refine ⟨fun s es h => ?reset, fun s es h => step_release h, rfl, rfl, rfl, rfl⟩
  case reset =>
    refine ⟨applyReset { s with schedule := es }, step_reset h, rfl, rfl, rfl, rfl, rfl, rfl, rfl, rfl, rfl, rfl, rfl,
      rfl, rfl, rfl, readReg_of_lt _ (by decide), ?status, rfl, irqO_applyReset _, fun a hlo hhi => ?zero, s.draws, rfl⟩
    case status => rw [readReg_of_lt _ (by decide)]; exact statusWord_applyReset _
    case zero => rw [readReg_of_lt _ (by omega)]; exact readLow_applyReset_eq_zero _ hlo hhi

end Sys2Proof.Machine
end

section
/-! PROOFS. The invariant of Sys2Proof/Safety.lean is kept by every step of every agent: one lemma for each update of the
block, then one for each kind of move. -/

namespace Sys2Proof.Machine

/-! ### The completed frame -/

/-- After the completion step registers and bands describe the buffer (43_acquisition.md R172): the bands it writes are no
part of what the statistics are computed from. -/
theorem frameComplete_completeFrame (s : State) : (completeFrame s).FrameComplete := by
  have hstats : (completeFrame s).stats = s.stats := by simp [State.stats]
  simp [State.FrameComplete, hstats, State.pixel]

/-- `enc32` keeps every value the decoder can give (42_decoder.md R155). -/
theorem inDecodeRange_enc32 {q : Int} (h : InDecodeRange q) : InDecodeRange (enc32 q).toInt := by
  obtain ⟨hlo, hhi⟩ := h
  rw [enc32_toInt (by omega)]
  exact ⟨hlo, hhi⟩

theorem inDecodeRange_of_mem {pix : Vector Pixel 64} {q : Int} (h : q ∈ decodedPixels pix) : InDecodeRange q := by
  obtain ⟨v, rfl⟩ := mem_decodedPixels h
  exact decodeRaw_range v

theorem extrema_completeFrame (s : State) :
    InDecodeRange (completeFrame s).minQ.toInt ∧ InDecodeRange (completeFrame s).maxQ.toInt :=
  ⟨inDecodeRange_enc32 (inDecodeRange_of_mem (minOf_spec (decodedPixels_ne_nil s.pix)).1),
    inDecodeRange_enc32 (inDecodeRange_of_mem (maxOf_spec (decodedPixels_ne_nil s.pix)).1)⟩

/-! ### What the invariant gives -/

section
variable {s : State}

/-- FATAL is 0 outside HALTED (60_exceptions.md R222). -/
theorem State.Inv.fatal_eq_false (h : s.Inv) (hs : s.seqState ≠ .halted) : s.fatal = false :=
  Bool.eq_false_iff.mpr (mt h.halted.mp hs)

/-- No transaction is in progress where the position's step is none (20_memory.md R76). -/
theorem State.Inv.onBus_eq_false (h : s.Inv) (ha : s.atTransaction = false) : s.onBus = false :=
  Bool.eq_false_iff.mpr fun hb => by simp [(h.progress hb).1] at ha

theorem atTransaction_of_idle (hs : s.seqState = .idle) : s.atTransaction = false := by
  simp [State.atTransaction, hs]

/-- SETTLE1, SETTLE2 and STATS are no transactions (41_init.md R140, 43_acquisition.md R172). -/
theorem atTransaction_of_quietStep (hq : s.seqStep ∈ [SeqStep.settle1, .settle2, .stats]) :
    s.atTransaction = false := by
  simp only [List.mem_cons, List.not_mem_nil, or_false] at hq
  rcases hq with hq | hq | hq <;> simp [State.atTransaction, hq]

theorem busy_of_init (hs : s.seqState = .init) : s.busy = true := by simp [State.busy, SeqState.busy, hs]

theorem busy_of_prim (hs : s.seqState = .prim) : s.busy = true := by simp [State.busy, SeqState.busy, hs]

theorem busy_of_acquiring (hs : s.seqState = .frame ∨ s.seqState = .runFrame) : s.busy = true := by
  rcases hs with hs | hs <;> simp [State.busy, SeqState.busy, hs]

/-- The clause on reset asks nothing while `rst_n` is released. -/
theorem inReset_of_released {P : Prop} (hr : s.rstN = true) : s.rstN = false → P := by simp [hr]

/-! ### Updates that leave the position -/

theorem inv_afterEvent (h : s.Inv) (es : List Event) (n : Nat) : (afterEvent s es n).Inv := { h with }

theorem inv_afterLine (h : s.Inv) (ls : List HostLine) (n : Nat) : (afterLine s ls n).Inv := { h with }

theorem inv_raiseCmdErr {c : CmdCause} (h : s.Inv) (hr : s.rstN = true) (hc : c ≠ .none) : (raiseCmdErr c s).Inv :=
  { h with
    cmdCause := by
      cases he : s.cmdErr with
      | false => simp [he, hc]
      | true => simpa [he] using h.cmdCause.mpr he
    inReset := inReset_of_released hr }

theorem inv_writeStatus (w : Word) (h : s.Inv) (hr : s.rstN = true) : (writeStatus w s).Inv :=
  { h with
    cmdCause := by
      cases hw : w.getLsbD 8 with
      | false =>
          simpa only [writeStatus, hw, Bool.not_false, Bool.and_true, Bool.false_eq_true, if_false] using h.cmdCause
      | true => simp [writeStatus, hw]
    inReset := inReset_of_released hr }

theorem inv_config (c : ConfigReg) (h : s.Inv) (hr : s.rstN = true) : { s with config := c }.Inv :=
  { h with inReset := inReset_of_released hr }

/-- A request, by STOP or by `cancel_i`, sets `cancel_pend` only while busy (43_acquisition.md R177, R178). -/
theorem inv_cancelInput (pend prev : Bool) (h : s.Inv) (hr : s.rstN = true) (hp : pend = true → s.busy = true) :
    { s with cancelPend := pend, cancelPrev := prev }.Inv :=
  { h with
    cancel  := hp
    inReset := inReset_of_released hr }

/-- The wires' history and the oracle's lists are no part of the invariant, and no transaction is in progress after one. -/
theorem inv_afterIssue (r : BusRecord) (ws : List WriteReply) (rs : List ReadReply) (n : Nat) (h : s.Inv)
    (hr : s.rstN = true) : (afterIssue s r ws rs n).Inv :=
  { h with
    progress := fun hb => absurd hb (by simp [afterIssue])
    inReset  := inReset_of_released hr }

theorem inv_hung (h : s.Inv) (hr : s.rstN = true) (hb : s.busy = true) (ho : s.onBus = false) :
    { s with hung := true }.Inv :=
  { h with
    transfer := fun _ => hb
    progress := fun h' => absurd h' (by simp [ho])
    inReset  := inReset_of_released hr }

/-- In IDLE the latched command is not running (10_state.md R24). -/
theorem inv_latchCommand (i : Instr) (h : s.Inv) (hr : s.rstN = true) (hs : s.seqState = .idle) :
    (latchCommand i s).Inv :=
  { h with
    position := by simp [State.PositionOk, hs]
    progress := by simp [h.onBus_eq_false (atTransaction_of_idle hs)]
    inReset  := inReset_of_released hr }

theorem inv_busStart (h : s.Inv) : (busStart s).Inv := by
  unfold busStart
  split
  next hb =>
    simp only [Bool.and_eq_true, Bool.not_eq_true'] at hb
    obtain ⟨⟨⟨hr, hh⟩, -⟩, ha⟩ := hb
    exact { h with
      progress := fun _ => ⟨ha, hh⟩
      inReset  := inReset_of_released hr }
  next => exact h

theorem inv_advanceTime (δ : Rat) (h : s.Inv) : (advanceTime δ s).Inv := by
  unfold advanceTime
  split
  next hδ => exact { h with time := add_nonneg h.time hδ.le }
  next => exact h

theorem inv_sampleCancel (level : Bool) (h : s.Inv) : (sampleCancel level s).Inv := by
  unfold sampleCancel
  split
  next hr =>
    refine inv_cancelInput _ _ h hr fun hp => ?_
    rcases Bool.or_eq_true _ _ ▸ hp with hc | hc
    · exact h.cancel hc
    · exact (Bool.and_eq_true _ _ ▸ hc).2
  next => exact h

/-! ### Updates that move the block to another position -/

theorem inv_startTransfer (h : s.Inv) (hr : s.rstN = true) (hs : s.seqState = .idle)
    (hop : s.latch.op = 0x1 ∨ s.latch.op = 0x2) : (startTransfer s).Inv :=
  { h with
    position     := ⟨rfl, hop⟩
    cancel       := fun _ => rfl
    halted       := by simp [startTransfer, h.fatal_eq_false, hs]
    acquiring    := by simp [startTransfer]
    waiting      := by simp [startTransfer]
    initialising := by simp [startTransfer]
    initDone     := by simp [startTransfer]
    transfer     := fun _ => rfl
    progress     := by simp [startTransfer, h.onBus_eq_false (atTransaction_of_idle hs)]
    inReset      := inReset_of_released hr }

theorem inv_startDecode (v : Half) (h : s.Inv) (hr : s.rstN = true) : (startDecode v s).Inv :=
  { h with inReset := inReset_of_released hr }

theorem inv_startInit (h : s.Inv) (hr : s.rstN = true) (hs : s.seqState = .idle) (hop : s.latch.op = 0x4) :
    (startInit s).Inv :=
  { h with
    position     := ⟨by simp [startInit], hop⟩
    cancel       := fun _ => rfl
    halted       := by simp [startInit, h.fatal_eq_false, hs]
    acquiring    := by simp [startInit]
    waiting      := by simp [startInit]
    initialising := fun _ => rfl
    initDone     := by simp [startInit]
    transfer     := fun _ => rfl
    progress     := by simp [startInit, h.onBus_eq_false (atTransaction_of_idle hs)]
    inReset      := inReset_of_released hr }

theorem inv_startFrame (h : s.Inv) (hr : s.rstN = true) (hs : s.seqState = .idle) (hop : s.latch.op = 0x5)
    (hd : s.initDone = true) : (startFrame s).Inv :=
  { h with
    position     := ⟨.inl ⟨rfl, by simp [startFrame]⟩, hop⟩
    index        := by simp [startFrame]
    cancel       := fun _ => rfl
    halted       := by simp [startFrame, h.fatal_eq_false, hs]
    frame        := by simp [startFrame]
    acquiring    := fun _ => rfl
    waiting      := by simp [startFrame]
    initialising := by simp [startFrame]
    initDone     := fun _ => hd
    transfer     := fun _ => rfl
    progress     := by simp [startFrame, h.onBus_eq_false (atTransaction_of_idle hs)]
    inReset      := inReset_of_released hr }

/-- A frame of RUN starts from IDLE (43_acquisition.md R174) and from RUN_WAIT (R175). -/
theorem inv_startRunFrame (h : s.Inv) (hr : s.rstN = true) (hs : s.seqState = .idle ∨ s.seqState = .runWait)
    (hop : s.latch.op = 0x6) (hd : s.initDone = true) : (startRunFrame s).Inv :=
  have hf : s.fatal = false := h.fatal_eq_false (by rcases hs with hs | hs <;> simp [hs])
  have ho : s.onBus = false := h.onBus_eq_false (by rcases hs with hs | hs <;> simp [State.atTransaction, hs])
  { h with
    position     := ⟨.inl ⟨rfl, by simp [startRunFrame]⟩, hop⟩
    index        := by simp [startRunFrame]
    cancel       := fun _ => rfl
    halted       := by simp [startRunFrame, hf]
    frame        := by simp [startRunFrame]
    acquiring    := fun _ => rfl
    waiting      := by simp [startRunFrame]
    initialising := by simp [startRunFrame]
    initDone     := fun _ => hd
    transfer     := fun _ => rfl
    progress     := by simp [startRunFrame, ho]
    inReset      := inReset_of_released hr }

/-- INIT goes to its next step, with whatever wait that step has (41_init.md R140). -/
theorem inv_initMove (q : SeqStep) (w : Rat) (h : s.Inv) (hr : s.rstN = true) (hs : s.seqState = .init)
    (ho : s.onBus = false) (hq : q ∈ [SeqStep.settle1, .wPctl, .wSclr, .wRst, .settle2]) :
    { s with seqStep := q, waitUntil := w }.Inv :=
  { h with
    position := by
      have hp := h.position
      simp only [State.PositionOk, hs] at hp ⊢
      exact ⟨hq, hp.2⟩
    progress := by simp [ho]
    inReset  := inReset_of_released hr }

theorem inv_finishInit (h : s.Inv) (hr : s.rstN = true) (hs : s.seqState = .init) (hh : s.hung = false)
    (ho : s.onBus = false) (hc : s.cancelPend = false) : (finishInit s).Inv :=
  { h with
    position     := trivial
    cancel       := by simp [finishInit, hc]
    halted       := by simp [finishInit, h.fatal_eq_false, hs]
    acquiring    := by simp [finishInit]
    waiting      := by simp [finishInit]
    initialising := by simp [finishInit]
    initDone     := fun _ => rfl
    transfer     := by simp [finishInit, hh]
    progress     := by simp [finishInit, ho]
    inReset      := inReset_of_released hr }

/-- A transfer that ends with a cancel pending stays in PRIM for the cancel step (43_acquisition.md R181). -/
theorem inv_endTransfer (h : s.Inv) (hr : s.rstN = true) (hs : s.seqState = .prim) (hh : s.hung = false)
    (ho : s.onBus = false) : (endTransfer s).Inv := by
  unfold endTransfer
  split
  next => exact h
  next hc =>
    exact { h with
      position     := trivial
      cancel       := fun hp => absurd hp hc
      halted       := by simp [h.fatal_eq_false, hs]
      acquiring    := by simp
      waiting      := by simp
      initialising := by simp
      initDone     := by simp
      transfer     := by simp [hh]
      progress     := by simp [ho]
      inReset      := inReset_of_released hr }

theorem inv_raw (v : Half) (h : s.Inv) (hr : s.rstN = true) : { s with raw := v }.Inv :=
  { h with inReset := inReset_of_released hr }

/-- A READ moves to the next pixel, or to STATS after the last (43_acquisition.md R170). FRAME_VALID is 0, so the buffer need
not be one complete frame. -/
theorem inv_storePixel (b0 b1 : Byte) (h : s.Inv) (hr : s.rstN = true)
    (hs : s.seqState = .frame ∨ s.seqState = .runFrame) (hk : s.k < 64) (ho : s.onBus = false) :
    (storePixel b0 b1 s).Inv :=
  { h with
    position := by
      have hp := h.position
      have hnext : (storePixel b0 b1 s).seqStep = .read ∧ s.k + 1 < 64 ∨
          (storePixel b0 b1 s).seqStep = .stats ∧ s.k + 1 = 64 := by
        by_cases hlast : s.k + 1 = 64
        · exact .inr ⟨by simp [hlast], hlast⟩
        · exact .inl ⟨by simp [hlast], by omega⟩
      rcases hs with hs | hs <;> simp only [State.PositionOk, storePixel_seqState, hs] at hp ⊢ <;>
        exact ⟨hnext, hp.2⟩
    index    := hk
    frame    := by simp [h.acquiring hs]
    progress := by simp [ho]
    inReset  := inReset_of_released hr }

theorem inv_completeFrame (h : s.Inv) (hr : s.rstN = true) (hs : s.seqState = .frame ∨ s.seqState = .runFrame)
    (hh : s.hung = false) (ho : s.onBus = false) (hc : s.cancelPend = false) : (completeFrame s).Inv :=
  have hf : s.fatal = false := h.fatal_eq_false (by rcases hs with hs | hs <;> simp [hs])
  { h with
    position     := by
      have hp := h.position
      rcases hs with hs | hs <;> simp_all [State.PositionOk]
    cancel       := by simp [hc]
    halted       := by rcases hs with hs | hs <;> simp [hf, hs]
    frame        := fun _ => frameComplete_completeFrame s
    acquiring    := by rcases hs with hs | hs <;> simp [hs]
    waiting      := fun _ => rfl
    initialising := by rcases hs with hs | hs <;> simp [hs]
    initDone     := fun _ => h.initDone (by tauto)
    extrema      := extrema_completeFrame s
    transfer     := by simp [hh]
    progress     := by simp [ho]
    inReset      := inReset_of_released hr }

theorem inv_raiseFatal {c : ErrCode} (reg : Byte) (rw : Bool) (h : s.Inv) (hr : s.rstN = true) (hh : s.hung = false)
    (ho : s.onBus = false) (hc : c ≠ .none) : (raiseFatal c reg rw s).Inv :=
  { h with
    position     := trivial
    cancel       := by simp
    halted       := by simp
    errCode      := by simp [hc]
    errInfo      := by simp
    acquiring    := by simp
    waiting      := by simp
    initialising := by simp
    initDone     := by simp
    transfer     := by simp [hh]
    progress     := by simp [ho]
    inReset      := inReset_of_released hr }

theorem inv_cancelStep (h : s.Inv) (hr : s.rstN = true) (hb : s.busy = true) (hh : s.hung = false)
    (ho : s.onBus = false) : (cancelStep s).Inv :=
  have hs : s.seqState ≠ .halted := by
    intro hs
    simp [State.busy, SeqState.busy, hs] at hb
  { h with
    position     := trivial
    index        := by simp
    cancel       := by simp
    halted       := by simp [h.fatal_eq_false hs]
    acquiring    := by simp
    waiting      := by simp
    initialising := by simp
    initDone     := by simp
    transfer     := by simp [hh]
    progress     := by simp [ho]
    inReset      := inReset_of_released hr }

/-- Reset leaves its table, at which the invariant holds (70_reset_and_hazards.md R250). -/
theorem inv_applyReset (s : State) : (applyReset s).Inv where
  position     := trivial
  index        := Nat.zero_le _
  cancel       := by simp [applyReset, State.resetOf]
  halted       := by simp [applyReset, State.resetOf]
  errCode      := by simp [applyReset, State.resetOf]
  errInfo      := fun _ => rfl
  cmdCause     := by simp [applyReset, State.resetOf]
  frame        := by simp [applyReset, State.resetOf]
  acquiring    := fun _ => rfl
  waiting      := by simp [applyReset, State.resetOf]
  initialising := fun _ => rfl
  initDone     := by simp [applyReset, State.resetOf]
  extrema      := by simp [applyReset, State.resetOf, InDecodeRange]
  transfer     := by simp [applyReset, State.resetOf]
  progress     := by simp [applyReset, State.resetOf]
  inReset      := fun _ => ⟨s.draws, by simp [State.SameBlock, applyReset, State.resetOf]⟩
  time         := le_rfl

theorem inv_setReset (level : Bool) (h : s.Inv) : (setReset level s).Inv := by
  cases level with
  | false => exact inv_applyReset s
  | true => exact { h with inReset := inReset_of_released rfl }

/-! ### The moves -/

/-- Issuing a command keeps the invariant (30_encoding.md R105). -/
theorem inv_issueMove {i : Instr} {t : State} (h : s.Inv) (hr : s.rstN = true) (m : IssueMove s i t) : t.Inv := by
  cases m with
  | nothing => exact h
  | rejected _ c _ hc => exact inv_raiseCmdErr h hr hc
  | transfer _ hop hs => exact inv_startTransfer (inv_latchCommand i h hr hs) hr hs hop
  | decoded v hs => exact inv_startDecode v (inv_latchCommand _ h hr hs) hr
  | initStarted hs => exact inv_startInit (inv_latchCommand _ h hr hs) hr hs rfl
  | frameStarted hs hd => exact inv_startFrame (inv_latchCommand _ h hr hs) hr hs rfl hd
  | runStarted hs hd => exact inv_startRunFrame (inv_latchCommand _ h hr hs) hr (.inl hs) rfl hd
  | stopped hb => exact inv_cancelInput true s.cancelPrev h hr fun _ => hb

/-- A host access keeps the invariant (40_bus_primitives.md R123, R124). -/
theorem inv_hostMove {l : HostLine} {t : State} (h : s.Inv) (m : HostMove s l t) : t.Inv := by
  cases m with
  | noEffect => exact h
  | refused _ _ c hr hc => exact inv_raiseCmdErr h hr hc
  | config w hr _ => exact inv_config _ h hr
  | command _ _ _ hr _ m => exact inv_issueMove h hr m
  | status w hr => exact inv_writeStatus w h hr
  | read => exact { h with }
  | polled => exact { h with }

/-- In a busy block whose command step comes next and is no transaction no cancel is pending: it would have been taken
(43_acquisition.md R178, R181). -/
theorem cancelPend_eq_false_of_due (hd : s.busy = false ∨ s.cancelPend = false ∨ s.inTransaction = true)
    (hb : s.busy = true) (ha : s.atTransaction = false) : s.cancelPend = false := by
  simpa [hb, State.inTransaction, ha] using hd

/-- A command step keeps the invariant. -/
theorem inv_commandMove {t : State} (h : s.Inv) (hr : s.rstN = true) (hh : s.hung = false)
    (hd : s.busy = false ∨ s.cancelPend = false ∨ s.inTransaction = true) (m : CommandMove s t) : t.Inv := by
  cases m with
  | stay => exact h
  | settled hs hq _ =>
      have ho := h.onBus_eq_false (atTransaction_of_quietStep (by simp [hq]))
      exact inv_initMove _ s.waitUntil h hr hs ho (by simp)
  | initWrote reg data q ws n hs hq =>
      have hi := inv_afterIssue (.write s.config.devAddr reg data (.ok ())) ws s.readReplies n h hr
      exact inv_initMove q s.waitUntil hi hr hs rfl (by rcases hq with ⟨-, -, -, rfl⟩ | ⟨-, -, -, rfl⟩ <;> simp)
  | resetWrote ws n hs _ =>
      have hi := inv_afterIssue (.write s.config.devAddr 0x01 0x3F (.ok ())) ws s.readReplies n h hr
      exact inv_initMove _ _ hi hr hs rfl (by simp)
  | initDone hs hq _ =>
      have ha := atTransaction_of_quietStep (s := s) (by simp [hq])
      exact inv_finishInit h hr hs hh (h.onBus_eq_false ha) (cancelPend_eq_false_of_due hd (busy_of_init hs) ha)
  | wrote ws n hs _ _ => exact inv_endTransfer (inv_afterIssue _ ws _ n h hr) hr hs hh rfl
  | readWord b0 b1 rs n hs _ _ =>
      exact inv_endTransfer (inv_raw _ (inv_afterIssue _ _ rs n h hr) hr) hr hs hh rfl
  | readPixel b0 b1 rs n hs _ hk => exact inv_storePixel b0 b1 (inv_afterIssue _ _ rs n h hr) hr hs hk rfl
  | completed hs hq =>
      have ha := atTransaction_of_quietStep (s := s) (by simp [hq])
      exact inv_completeFrame h hr hs hh (h.onBus_eq_false ha)
        (cancelPend_eq_false_of_due hd (busy_of_acquiring hs) ha)
  | nextFrame hs _ =>
      have hop : s.latch.op = 0x6 := by
        have hp := h.position
        simp only [State.PositionOk, hs] at hp
        exact hp.2
      exact inv_startRunFrame h hr (.inr hs) hop (h.initDone (.inr (.inr hs)))
  | writeFailed reg _ c ws n _ hc => exact inv_raiseFatal reg false (inv_afterIssue _ ws _ n h hr) hr hh rfl hc
  | readFailed reg c rs n _ hc => exact inv_raiseFatal reg true (inv_afterIssue _ _ rs n h hr) hr hh rfl hc
  | writeHeld reg data ws n hs =>
      exact inv_hung (inv_afterIssue (.write s.config.devAddr reg data .held) ws s.readReplies n h hr) hr
        (hs.elim busy_of_init busy_of_prim) rfl
  | readHeld reg rs n hs =>
      exact inv_hung (inv_afterIssue (.read s.config.devAddr reg .held) s.writeReplies rs n h hr) hr
        (hs.elim busy_of_prim busy_of_acquiring) rfl

/-- A step of the sequencer keeps the invariant (60_exceptions.md R229). -/
theorem inv_sequencerStep (h : s.Inv) : (sequencerStep s).Inv := by
  rcases sequencerStep_cases s with ⟨-, e⟩ | ⟨hr, hh, hb, -, ht, e⟩ | ⟨hr, hh, hd, e⟩ <;> rw [e]
  · exact h
  · have ho : s.onBus = false := Bool.eq_false_iff.mpr fun ho => by
      simp [State.inTransaction, ho, (h.progress ho).1] at ht
    exact inv_cancelStep h hr hb hh ho
  · exact inv_commandMove h hr hh hd (commandStep_move s)

end

/-- Settles O54, by the kind of agent that moves: each of its moves keeps the invariant. -/
theorem everyStepKeepsTheInvariant : Obligations.EveryStepKeepsTheInvariant := by
  unfold Obligations.EveryStepKeepsTheInvariant
  intro s t h hstep
  obtain ⟨es, n, hc⟩ := step_cases s
  have he := inv_afterEvent h es n
  rcases hc with ⟨-, ls, m, u, e, hm⟩ | ⟨-, e⟩ | ⟨δ, -, e⟩ | ⟨b, -, e⟩ | ⟨b, -, e⟩ | ⟨-, e⟩ <;>
    obtain rfl := Host.Outcome.next.inj (hstep.symm.trans e)
  · exact inv_hostMove (inv_afterLine he ls m) hm
  · exact inv_sequencerStep he
  · exact inv_advanceTime δ he
  · exact inv_sampleCancel b he
  · exact inv_setReset b he
  · exact inv_busStart he

end Sys2Proof.Machine
end

section
/-! PROOFS. What CONFIG, the statistics and DONE show of each kind of move: which moves keep them, and what the others
write. -/

namespace Sys2Proof.Machine

section
variable {s t : State}

/-! ### CONFIG -/

theorem issueMove_config {i : Instr} (m : IssueMove s i t) : t.config = s.config := by
  cases m <;> rfl

theorem commandMove_config (m : CommandMove s t) : t.config = s.config := by
  cases m with
  | wrote => rw [endTransfer_config]; rfl
  | readWord => rw [endTransfer_config]; rfl
  | _ => rfl

theorem sequencerStep_config (s : State) : (sequencerStep s).config = s.config := by
  rcases sequencerStep_move s with e | ⟨-, -, -, e⟩ | ⟨-, -, -, m⟩
  · rw [e]
  · rw [e, cancelStep_config]
  · exact commandMove_config m

/-- Of the host's accesses only a CONFIG write while not busy changes CONFIG (10_state.md R32). -/
theorem hostMove_config {l : HostLine} (m : HostMove s l t) (hb : s.busy = true) : t.config = s.config := by
  cases m with
  | config _ _ hidle => simp [hb] at hidle
  | command _ _ _ _ _ m => exact issueMove_config m
  | _ => rfl

/-! ### The statistics -/

/-- `t` has the statistics registers, FRAME_CNT and the bands of `s` (10_state.md R44). -/
def State.SameStatistics (s t : State) : Prop :=
  t.frameCnt = s.frameCnt ∧ t.minQ = s.minQ ∧ t.maxQ = s.maxQ ∧ t.sumQ = s.sumQ ∧ t.avgC = s.avgC ∧
    t.hiU = s.hiU ∧ t.lowU = s.lowU ∧ ∀ i : Fin 64, (t.pixel i).band = (s.pixel i).band

theorem sameStatistics_refl (s : State) : s.SameStatistics s := ⟨rfl, rfl, rfl, rfl, rfl, rfl, rfl, fun _ => rfl⟩

theorem sameStatistics_endTransfer (h : s.SameStatistics t) : s.SameStatistics (endTransfer t) := by
  simpa [State.SameStatistics, State.pixel] using h

theorem issueMove_sameStatistics {i : Instr} (m : IssueMove s i t) : s.SameStatistics t := by
  cases m <;> exact sameStatistics_refl s

theorem hostMove_sameStatistics {l : HostLine} (m : HostMove s l t) : s.SameStatistics t := by
  cases m with
  | command _ _ _ _ _ m => exact issueMove_sameStatistics m
  | _ => exact sameStatistics_refl s

/-- Of the command steps only STATS writes statistics; a READ writes one raw word and no band (43_acquisition.md R171,
R172). -/
theorem commandMove_sameStatistics (m : CommandMove s t) :
    s.SameStatistics t ∨
      s.seqStep = .stats ∧ (s.seqState = .frame ∨ s.seqState = .runFrame) ∧ t = completeFrame s := by
  cases m with
  | completed hs hq => exact .inr ⟨hq, hs, rfl⟩
  | wrote => exact .inl (sameStatistics_endTransfer (sameStatistics_refl s))
  | readWord => exact .inl (sameStatistics_endTransfer (sameStatistics_refl s))
  | readPixel =>
      refine .inl ⟨rfl, rfl, rfl, rfl, rfl, rfl, rfl, fun i => ?_⟩
      simp only [State.pixel, storePixel_pix, Fin.getElem_fin, setRaw_getElem, afterIssue]
      split <;> rfl
  | _ => exact .inl (sameStatistics_refl s)

theorem sequencerStep_sameStatistics (s : State) :
    s.SameStatistics (sequencerStep s) ∨
      s.seqStep = .stats ∧ (s.seqState = .frame ∨ s.seqState = .runFrame) ∧ sequencerStep s = completeFrame s := by
  rcases sequencerStep_move s with e | ⟨-, -, -, e⟩ | ⟨-, -, -, m⟩
  · exact .inl (e.symm ▸ sameStatistics_refl s)
  · exact .inl (e.symm ▸ sameStatistics_refl s)
  · exact commandMove_sameStatistics m

/-! ### DONE -/

/-- Of the commands only a DECODE issued in IDLE sets DONE at its issue (60_exceptions.md R230). -/
theorem issueMove_done {i : Instr} (m : IssueMove s i t) :
    t.done = s.done ∨ t.done = true ∧ s.seqState = .idle ∧ ∃ v, i = .decode v ∧ t.raw = v := by
  cases m with
  | decoded v hs => exact .inr ⟨rfl, hs, v, rfl, rfl⟩
  | _ => exact .inl rfl

theorem hostMove_done {l : HostLine} (m : HostMove s l t) :
    t.done = s.done ∨
    (t.done = true ∧ s.seqState = .idle ∧
      ∃ w v, l = .write 2 w ∧ decodeWord w = .ok (.decode v) ∧ t.raw = v) ∨
    ∃ w, l = .write 3 w ∧ t.done = (s.done && !w.getLsbD 6) := by
  cases m with
  | command w i _ _ hw m =>
      rcases issueMove_done m with e | ⟨e, hs, v, rfl, hv⟩
      · exact .inl e
      · exact .inr (.inl ⟨e, hs, w, v, rfl, hw, hv⟩)
  | status w _ => exact .inr (.inr ⟨w, rfl, rfl⟩)
  | _ => exact .inl rfl

/-- `t` is the end of a command whose last step is the sequencer's from `s` (60_exceptions.md R230). -/
def State.Completes (s t : State) : Prop :=
  s.seqStep = .xfer ∧ t.seqState = .idle ∨ s.seqStep = .settle2 ∧ t.initDone = true ∨
    s.seqStep = .stats ∧ t.frameValid = true

/-- A transfer sets DONE only if no cancel is pending, and it then ends in IDLE (43_acquisition.md R183). -/
theorem endTransfer_done_cases (s : State) :
    (endTransfer s).done = s.done ∨
      (endTransfer s).done = true ∧ s.cancelPend = false ∧ (endTransfer s).seqState = .idle := by
  unfold endTransfer
  cases hc : s.cancelPend with
  | true => exact .inl rfl
  | false => exact .inr ⟨rfl, rfl, rfl⟩

theorem commandMove_done (m : CommandMove s t)
    (hd : s.busy = false ∨ s.cancelPend = false ∨ s.inTransaction = true) :
    t.done = s.done ∨ t.done = true ∧ s.cancelPend = false ∧ s.Completes t := by
  cases m with
  | wrote ws n _ hq _ =>
      refine (endTransfer_done_cases _).imp id fun ⟨e, hc, hs⟩ => ⟨e, hc, .inl ⟨hq, hs⟩⟩
  | readWord b0 b1 rs n _ hq _ =>
      refine (endTransfer_done_cases _).imp id fun ⟨e, hc, hs⟩ => ⟨e, hc, .inl ⟨hq, hs⟩⟩
  | initDone hs hq _ =>
      have hc := cancelPend_eq_false_of_due hd (busy_of_init hs) (atTransaction_of_quietStep (by simp [hq]))
      exact .inr ⟨rfl, hc, .inr (.inl ⟨hq, rfl⟩)⟩
  | completed hs hq =>
      have hc := cancelPend_eq_false_of_due hd (busy_of_acquiring hs) (atTransaction_of_quietStep (by simp [hq]))
      exact .inr ⟨rfl, hc, .inr (.inr ⟨hq, rfl⟩)⟩
  | _ => exact .inl rfl

theorem sequencerStep_done (s : State) :
    (sequencerStep s).done = s.done ∨
      (sequencerStep s).done = true ∧ s.cancelPend = false ∧ s.Completes (sequencerStep s) := by
  rcases sequencerStep_move s with e | ⟨-, -, -, e⟩ | ⟨-, -, hd, m⟩
  · exact .inl (by rw [e])
  · exact .inl (by rw [e, cancelStep_done])
  · exact commandMove_done m hd

/-- A move that keeps DONE neither sets nor clears it. -/
theorem done_unmarked {p q : Prop} (e : t.done = s.done) :
    (s.done = false → t.done = true → p) ∧ (s.done = true → t.done = false → q) := by
  rw [e]
  exact ⟨fun h₁ h₂ => by simp [h₁] at h₂, fun h₁ h₂ => by simp [h₁] at h₂⟩

/-! ### The other agents -/

/-- What the agents other than the host and the sequencer can do short of reset: they write `now`, the cancel request, the
level of `rst_n` and that a transaction is in progress. -/
def State.EnvironmentWrote (s t : State) : Prop :=
  ∃ now prev pend rstN onBus,
    t = { s with now := now, cancelPrev := prev, cancelPend := pend, rstN := rstN, onBus := onBus }

theorem environmentWrote_refl (s : State) : s.EnvironmentWrote s := ⟨_, _, _, _, _, rfl⟩

theorem environmentWrote_advanceTime (δ : Rat) (s : State) : s.EnvironmentWrote (advanceTime δ s) := by
  unfold advanceTime
  split
  · exact ⟨_, _, _, _, _, rfl⟩
  · exact environmentWrote_refl s

theorem environmentWrote_sampleCancel (level : Bool) (s : State) : s.EnvironmentWrote (sampleCancel level s) := by
  unfold sampleCancel
  split
  · exact ⟨_, _, _, _, _, rfl⟩
  · exact environmentWrote_refl s

theorem environmentWrote_busStart (s : State) : s.EnvironmentWrote (busStart s) := by
  unfold busStart
  split
  · exact ⟨_, _, _, _, _, rfl⟩
  · exact environmentWrote_refl s

theorem environmentWrote_release (s : State) : s.EnvironmentWrote (setReset true s) := ⟨_, _, _, _, _, rfl⟩

/-- A step of the machine is the host's access, the sequencer's step, reset, or a step of the environment. -/
theorem step_agents (h : step s = .next t) :
    ∃ es n,
      (s.nextEvent = .host ∧ ∃ ls m, HostMove (afterLine (afterEvent s es n) ls m) s.nextLine t) ∨
      (s.nextEvent = .sequencer ∧ t = sequencerStep (afterEvent s es n)) ∨
      (s.resetsNext ∧ t = applyReset (afterEvent s es n)) ∨
      (afterEvent s es n).EnvironmentWrote t := by
  obtain ⟨es, n, hc⟩ := step_cases s
  refine ⟨es, n, ?_⟩
  rcases hc with ⟨hev, ls, m, u, e, hm⟩ | ⟨hev, e⟩ | ⟨δ, -, e⟩ | ⟨b, -, e⟩ | ⟨b, hev, e⟩ | ⟨-, e⟩ <;>
    obtain rfl := Host.Outcome.next.inj (h.symm.trans e)
  · exact .inl ⟨hev, ls, m, hm⟩
  · exact .inr (.inl ⟨hev, rfl⟩)
  · exact .inr (.inr (.inr (environmentWrote_advanceTime δ _)))
  · exact .inr (.inr (.inr (environmentWrote_sampleCancel b _)))
  · cases b with
    | false => exact .inr (.inr (.inl ⟨hev, rfl⟩))
    | true => exact .inr (.inr (.inr (environmentWrote_release _)))
  · exact .inr (.inr (.inr (environmentWrote_busStart _)))

end

/-- Settles O39: the only move that writes CONFIG is a host write while not busy. -/
theorem configIsConstantWhileBusy : Obligations.ConfigIsConstantWhileBusy := by
  unfold Obligations.ConfigIsConstantWhileBusy
  intro s t hb hreset hstep
  obtain ⟨es, n, ⟨-, ls, m, hm⟩ | ⟨-, rfl⟩ | ⟨hr, -⟩ | ⟨_, _, _, _, _, rfl⟩⟩ := step_agents hstep
  · exact (hostMove_config hm hb :)
  · exact sequencerStep_config _
  · exact absurd hr hreset
  · rfl

/-- Settles O56: the only move that writes statistics is the sequencer's STATS step, and it leaves a complete frame. -/
theorem onlyCompletionWritesStatistics : Obligations.OnlyCompletionWritesStatistics := by
  unfold Obligations.OnlyCompletionWritesStatistics
  intro s t hreset hstep
  obtain ⟨es, n, ⟨-, ls, m, hm⟩ | ⟨hev, rfl⟩ | ⟨hr, -⟩ | ⟨_, _, _, _, _, rfl⟩⟩ := step_agents hstep
  · exact .inl (hostMove_sameStatistics hm :)
  · rcases sequencerStep_sameStatistics (afterEvent s es n) with hsame | ⟨hq, hs, e⟩
    · exact .inl hsame
    · rw [e]
      exact .inr ⟨hev, hq, hs, rfl, frameComplete_completeFrame _, rfl, rfl⟩
  · exact absurd hr hreset
  · exact .inl (sameStatistics_refl s)

/-- Settles O59: DONE is kept by every move but the last step of a command, the host's clear and reset. -/
theorem doneMarksACompletedCommand : Obligations.DoneMarksACompletedCommand := by
  unfold Obligations.DoneMarksACompletedCommand
  intro s t hstep
  obtain ⟨es, n, ⟨hev, ls, m, hm⟩ | ⟨hev, rfl⟩ | ⟨hr, rfl⟩ | ⟨_, _, _, _, _, rfl⟩⟩ := step_agents hstep
  case inl =>
    rcases hostMove_done hm with e | ⟨e, hs, w, v, hl, hw, hv⟩ | ⟨w, hl, e⟩
    · exact done_unmarked e
    · exact ⟨fun _ _ => .inl ⟨hev, hs, w, v, hl, hw, hv⟩, fun _ h => by simp [e] at h⟩
    · change t.done = (s.done && !w.getLsbD 6) at e
      refine ⟨fun hs ht => ?_, fun hs ht => .inr ⟨hev, w, hl, ?_⟩⟩
      · simp [e, hs] at ht
      · simpa only [e, hs, Bool.true_and, Bool.not_eq_false'] using ht
  case inr.inl =>
    rcases sequencerStep_done (afterEvent s es n) with e | ⟨e, hc, hend⟩
    · exact done_unmarked e
    · exact ⟨fun _ _ => .inr ⟨hev, hc, hend⟩, fun _ h => by simp [e] at h⟩
  case inr.inr.inl => exact ⟨fun _ h => absurd h Bool.false_ne_true, fun _ _ => .inl hr⟩
  case inr.inr.inr => exact done_unmarked rfl

end Sys2Proof.Machine
end

section
/-! PROOFS. The register window as the host reads and writes it (10_state.md R26-R47, 40_bus_primitives.md R123, R124). -/

namespace Sys2Proof.Machine

/-! ### The words the registers read as -/

theorem errInfoWord_toNat (e : ErrInfo) :
    (errInfoWord e).toNat = e.errReg.toNat + 256 * e.errRw.toNat + 4096 * e.errOp.toNat := by
  simp only [errInfoWord, toNat_append_eq, toNat_ofBool_eq, BitVec.toNat_ofNat]
  omega

theorem configWord_toNat (c : ConfigReg) :
    (configWord c).toNat = c.irqEn.toNat + 2 * c.swap.toNat + 256 * c.devAddr.toNat := by
  simp only [configWord, toNat_append_eq, toNat_ofBool_eq, BitVec.toNat_ofNat]
  omega

theorem statusWord_toNat (s : State) :
    (statusWord s).toNat =
      s.seqState.code.toNat + 8 * s.busy.toNat + 16 * s.initDone.toNat + 32 * s.frameValid.toNat +
      64 * s.done.toNat + 128 * s.cancelled.toNat + 256 * s.cmdErr.toNat + 512 * s.fatal.toNat +
      4096 * s.errCode.code.toNat + 65536 * s.cmdCause.code.toNat := by
  simp only [statusWord, toNat_append_eq, toNat_ofBool_eq, BitVec.toNat_ofNat]
  omega

theorem pixWord_toNat (p : Pixel) : (pixWord p).toNat = p.raw.toNat + 65536 * p.band.toNat := by
  simp only [pixWord, toNat_append_eq, BitVec.toNat_ofNat]
  omega

/-- CONFIG reads as the word written, but for the bits it does not have (10_state.md R32). -/
theorem configWord_configOf (w : Word) : configWord (configOf w) = w &&& 0x00007F03 := by
  apply BitVec.eq_of_getLsbD_eq
  intro i hi
  simp only [configWord, configOf, BitVec.getLsbD_append]
  interval_cases i <;> simp

/-! ### Host reads -/

theorem toNat_ofNat_add (b : Nat) (i : Fin 64) (hb : b ≤ 0xC0) : (BitVec.ofNat 8 (b + i.val)).toNat = b + i.val := by
  rw [BitVec.toNat_ofNat, Nat.mod_eq_of_lt (by omega)]

/-- PIX[i] (10_state.md R46). -/
theorem readReg_pix (s : State) (i : Fin 64) : readReg s (BitVec.ofNat 8 (0x40 + i.val)) = pixWord (s.pixel i) := by
  have hd : (0x40 + i.val) / 64 = 1 := by omega
  have hm : (0x40 + i.val) % 64 = i.val := by omega
  simp only [readReg, toNat_ofNat_add _ i (show 0x40 ≤ 0xC0 by decide), hd, hm]

/-- PIXQ[i], a view (10_state.md R47). -/
theorem readReg_pixq (s : State) (i : Fin 64) :
    readReg s (BitVec.ofNat 8 (0x80 + i.val)) = enc32 (decodeRaw (s.pixel i).raw) := by
  have hd : (0x80 + i.val) / 64 = 2 := by omega
  have hm : (0x80 + i.val) % 64 = i.val := by omega
  simp only [readReg, toNat_ofNat_add _ i (show 0x80 ≤ 0xC0 by decide), hd, hm]

/-- PIXF[i], a view (10_state.md R47). -/
theorem readReg_pixf (s : State) (i : Fin 64) :
    readReg s (BitVec.ofNat 8 (0xC0 + i.val)) = f32 (decodeRaw (s.pixel i).raw) := by
  have hd : (0xC0 + i.val) / 64 = 3 := by omega
  have hm : (0xC0 + i.val) % 64 = i.val := by omega
  simp only [readReg, toNat_ofNat_add _ i le_rfl, hd, hm]

/-- The offsets after MAX_F and before PIX are reserved and read 0 (10_state.md R27). -/
theorem readLow_reserved (s : State) {n : Nat} (hlo : 0x11 ≤ n) : readLow s n = 0 := by
  obtain ⟨m, rfl⟩ := Nat.exists_eq_add_of_le' hlo
  rfl

/-- Settles O33: below offset 0x40 the host reads the table `readLow`, above it the pixel views. -/
theorem registerWindowReads : Obligations.RegisterWindowReads := by
  unfold Obligations.RegisterWindowReads
  intro s
  refine ⟨rfl, rfl, errInfoWord_toNat _, ?raw, rfl, rfl, rfl, rfl, rfl, rfl, rfl, rfl, rfl, rfl, rfl,
    fun a hlo hhi => ?reserved, fun i => ⟨?pix, readReg_pixq s i, readReg_pixf s i⟩⟩
  case raw => exact BitVec.toNat_setWidth_of_le (by decide)
  case reserved => rw [readReg_of_lt s (by omega), readLow_reserved s hlo]
  case pix => rw [readReg_pix, pixWord_toNat]

/-! ### Host writes -/

section
variable {s u : State} {a : BitVec 8} {w : Word}

theorem step_of_writes (h : s.Writes a w u) : step s = hostWrite a w u := by
  obtain ⟨es, ls, hs, hp, rfl⟩ := h
  rw [step_of_schedule hs]
  simp [runEvent, hostStep, hp, runHostLine]

/-- The lists that the write uses up are no part of the block. -/
theorem writes_rstN (h : s.Writes a w u) : u.rstN = s.rstN := by
  obtain ⟨es, ls, -, -, rfl⟩ := h
  rfl

theorem writes_busy (h : s.Writes a w u) : u.busy = s.busy := by
  obtain ⟨es, ls, -, -, rfl⟩ := h
  rfl

theorem hostWrite_config (hr : u.rstN = true) : hostWrite 1 w u = .next (writeConfig w u) := by
  simp [hostWrite, hr]

theorem hostWrite_status (hr : u.rstN = true) : hostWrite 3 w u = .next (writeStatus w u) := by
  simp [hostWrite, hr]

/-- While `rst_n` is 0 a host write has no effect (70_reset_and_hazards.md R252). -/
theorem hostWrite_inReset (hr : u.rstN = false) : hostWrite a w u = .next u := by
  simp [hostWrite, hr]

/-- A host write has an effect only at the offsets of CONFIG, CMD and STATUS (10_state.md R27). -/
theorem hostWrite_other (h₁ : a ≠ 1) (h₂ : a ≠ 2) (h₃ : a ≠ 3) : hostWrite a w u = .next u := by
  unfold hostWrite
  split
  · split
    next h => exact absurd (BitVec.eq_of_toNat_eq h) h₁
    next h => exact absurd (BitVec.eq_of_toNat_eq h) h₂
    next h => exact absurd (BitVec.eq_of_toNat_eq h) h₃
    next => rfl
  · rfl

/-- The clears of STATUS, bit by bit (10_state.md R34). -/
theorem writeStatus_eq (w : Word) (u : State) :
    writeStatus w u =
      { u with
        done      := if w.getLsbD 6 then false else u.done
        cancelled := if w.getLsbD 7 then false else u.cancelled
        cmdErr    := if w.getLsbD 8 then false else u.cmdErr
        cmdCause  := if w.getLsbD 8 then .none else u.cmdCause } := by
  have hclear (flag bit : Bool) : (flag && !bit) = if bit then false else flag := by cases bit <;> simp
  simp only [writeStatus, hclear]

end

/-- Settles O34: a CONFIG write is `writeConfig`, refused while busy. -/
theorem configReadsAndWrites : Obligations.ConfigReadsAndWrites := by
  unfold Obligations.ConfigReadsAndWrites
  intro s w
  refine ⟨configWord_toNat _, fun u hr hb hw => ?accepted, fun u hr hb hw => ?refused⟩
  case accepted =>
    have e : writeConfig w u = { u with config := configOf w } := by simp [writeConfig, writes_busy hw, hb]
    refine ⟨_, (step_of_writes hw).trans (hostWrite_config ((writes_rstN hw).trans hr)), ?_⟩
    rw [e]
    exact ⟨rfl, configWord_configOf w⟩
  case refused =>
    rw [step_of_writes hw, hostWrite_config ((writes_rstN hw).trans hr), writeConfig, writes_busy hw, if_pos hb]
    rfl

/-- Settles O35: a STATUS write is `writeStatus`. -/
theorem statusReadsAndClears : Obligations.StatusReadsAndClears := by
  unfold Obligations.StatusReadsAndClears
  refine ⟨rfl, rfl, fun s w => ⟨statusWord_toNat s, fun u hr hw => ?clears⟩⟩
  case clears =>
    rw [step_of_writes hw, hostWrite_status ((writes_rstN hw).trans hr), writeStatus_eq]
    obtain ⟨es, ls, -, -, rfl⟩ := hw
    rfl

/-- Settles O36: `hostWrite` does nothing at another offset or under reset. -/
theorem otherWritesHaveNoEffect : Obligations.OtherWritesHaveNoEffect := by
  unfold Obligations.OtherWritesHaveNoEffect
  intro s u a w hw
  rw [step_of_writes hw]
  exact ⟨hostWrite_other, fun hr => hostWrite_inReset ((writes_rstN hw).trans hr)⟩

end Sys2Proof.Machine
end

section
/-! PROOFS. RDWORD as a whole (40_bus_primitives.md R122) and the sum of a frame (44_statistics.md R191). -/

namespace Sys2Proof.Machine

/-- RDWORD issued in IDLE is latched and stands before its transfer (30_encoding.md R105, 40_bus_primitives.md R122). -/
theorem exec_rdword_idle {s : State} (reg : Byte) (hs : s.seqState = .idle) :
    exec (.rdword reg) s = .next (startTransfer (latchCommand (.rdword reg) s)) :=
  congrArg _ (acceptCommand_idle _ _ _ s hs (by simp))

/-- The transfer of RDWORD with a listed answer of two bytes and no cancel pending. -/
theorem sequencerStep_rdword {t : State} {b0 b1 : Byte} {rs : List ReadReply} (hu : t.Undisturbed)
    (hs : t.seqState = .prim) (hq : t.seqStep = .xfer) (hop : t.latch.op = 0x2) (hr : t.readReplies = .ack b0 b1 :: rs) :
    sequencerStep t =
      { t with
        seqState    := .idle
        done        := true
        raw         := norm t.config.swap b0 b1
        onBus       := false
        trace       := t.trace ++ [.read t.config.devAddr t.latch.reg (.ok (b0, b1))]
        readReplies := rs } := by
  have ⟨_, _, hc⟩ := hu
  rw [sequencerStep_due (stepDue_of_undisturbed hu)]
  have hop' : t.latch.op ≠ 0x1 := by rw [hop]; decide
  simp only [commandStep, hs, primStep, hq, if_neg hop', if_pos hop, rdwordTransfer, readTransaction_ack _ _ _ _ _ _ hr,
    endTransfer, afterIssue, hc]
  rfl

/-- Settles O11: the issue, then the one step of the transfer. -/
theorem rdwordReadsOneDeviceWord : Obligations.RdwordReadsOneDeviceWord := by
  unfold Obligations.RdwordReadsOneDeviceWord
  intro s reg b0 b1 rs v hs hu hr hv
  refine ⟨_, exec_rdword_idle reg hs, ?_⟩
  have e := sequencerStep_rdword (t := startTransfer (latchCommand (.rdword reg) s)) hu rfl rfl rfl hr
  have hraw : (sequencerStep (startTransfer (latchCommand (.rdword reg) s))).raw = v := by rw [e, hv]; rfl
  refine ⟨?state, congrArg (fun r => enc32 (decodeRaw r)) hraw, congrArg (fun r => f32 (decodeRaw r)) hraw⟩
  case state =>
    rw [e, hv, ← hs]
    rfl

/-! ### The sum of a frame -/

theorem decodedPixels_eq_ofFn (pix : Vector Pixel 64) :
    decodedPixels pix = List.ofFn fun i : Fin 64 => decodeRaw pix[i].raw := by
  apply List.ext_getElem
  · simp [decodedPixels]
  · intro i h₁ h₂
    rw [List.getElem_ofFn]
    simp [decodedPixels]

/-- 64 values of the decoder sum up to a number of 32 bits (44_statistics.md R191). -/
theorem sum_decodedPixels_range (pix : Vector Pixel 64) :
    -131072 ≤ (decodedPixels pix).sum ∧ (decodedPixels pix).sum ≤ 3932096 := by
  have hlo := List.card_nsmul_le_sum (decodedPixels pix) (-2048) fun q hq => by
    obtain ⟨v, rfl⟩ := mem_decodedPixels hq
    exact (decodeRaw_range v).1
  have hhi := List.sum_le_card_nsmul (decodedPixels pix) 61439 fun q hq => by
    obtain ⟨v, rfl⟩ := mem_decodedPixels hq
    exact (decodeRaw_range v).2
  rw [decodedPixels_length] at hlo hhi
  exact ⟨by simpa using hlo, by simpa using hhi⟩

/-- Settles O48: the sum's range fits `enc32`. -/
theorem sumNeverOverflows : Obligations.SumNeverOverflows := by
  unfold Obligations.SumNeverOverflows
  intro pix
  obtain ⟨hlo, hhi⟩ := sum_decodedPixels_range pix
  exact ⟨congrArg List.sum (decodedPixels_eq_ofFn pix), hlo, hhi,
    enc32_toInt (x := (decodedPixels pix).sum) (by omega)⟩

end Sys2Proof.Machine
end

section
/-! PROOFS. The two transactions on the wires (20_memory.md R76, R77, R80-R82). -/

namespace Sys2Proof.Machine

/-- The address byte is twice the address and the direction bit (20_memory.md R77). -/
theorem eq_addressByte {a : BitVec 7} {b : Byte} (rw : Bool) (h : b.toNat = 2 * a.toNat + rw.toNat) :
    b = addressByte a rw := by
  apply BitVec.eq_of_toNat_eq
  simp only [addressByte, toNat_append_eq, toNat_ofBool_eq]
  omega

/-! ### A transaction that is cut -/

/-- The symbol is one of a whole sequence: it is not cut itself. -/
def WireSym.Whole (w : WireSym) : Prop := (∀ v p, w ≠ .sdaLost v p) ∧ ∀ v p, w ≠ .sclStuck v p

theorem whole_of_mem_writeSyms {a : BitVec 7} {r d : Byte} {w : WireSym} (h : w ∈ writeSyms a r d) : w.Whole := by
  simp only [writeSyms, sentByte, List.cons_append, List.nil_append, List.mem_cons, List.not_mem_nil, or_false] at h
  rcases h with rfl | rfl | rfl | rfl | rfl | rfl | rfl | rfl <;> simp [WireSym.Whole]

theorem whole_of_mem_readSyms {a : BitVec 7} {r b0 b1 : Byte} {w : WireSym} (h : w ∈ readSyms a r b0 b1) :
    w.Whole := by
  simp only [readSyms, sentByte, List.cons_append, List.nil_append, List.mem_cons, List.not_mem_nil, or_false] at h
  rcases h with rfl | rfl | rfl | rfl | rfl | rfl | rfl | rfl | rfl | rfl | rfl | rfl | rfl <;> simp [WireSym.Whole]

/-- SDA is lost in some bit of the sequence (20_memory.md R82). -/
theorem lostIn_cutSyms (n : Nat) (ws : List WireSym) (hw : ∀ w ∈ .start :: ws, w.Whole) :
    LostIn (.start :: ws) (cutSyms n (cuts .sdaLost WireSym.losses (.start :: ws))) := by
  have hstart : WireSym.start.losses ≠ [] := by decide
  obtain ⟨l, hl, e⟩ := cutSyms_cases n (cuts_start_ne_nil (mark := .sdaLost) ws hstart)
  obtain ⟨pre, w, post, p, hws, hp, rfl⟩ := mem_cuts.mp hl
  obtain ⟨hlisten, hpull⟩ := mem_losses.mp hp
  have hlen := length_targetPulls (hw w (by simp [hws]))
  refine ⟨pre, w, post, p, _, hws, by rw [e, List.append_assoc]; rfl, ?byte, ?ack, hpull, rfl, levels_sdaLost hpull hlen⟩
  case byte => rintro b rfl; simp [WireSym.listens] at hlisten
  case ack => rintro rfl; simp [WireSym.listens] at hlisten

/-- SCL stays low in some bit of the sequence (20_memory.md R98). -/
theorem stuckIn_cutSyms (n : Nat) (ws : List WireSym) (hw : ∀ w ∈ .start :: ws, w.Whole) :
    StuckIn (.start :: ws) (cutSyms n (cuts .sclStuck WireSym.stalls (.start :: ws))) := by
  have hstart : WireSym.start.stalls ≠ [] := by decide
  obtain ⟨l, hl, e⟩ := cutSyms_cases n (cuts_start_ne_nil (mark := .sclStuck) ws hstart)
  obtain ⟨pre, w, post, p, hws, hp, rfl⟩ := mem_cuts.mp hl
  obtain ⟨sda, hpull⟩ := mem_stalls.mp hp
  have hlen := length_targetPulls (hw w (by simp [hws]))
  exact ⟨pre, w, post, p, _, sda, hws, by rw [e, List.append_assoc]; rfl, hpull, rfl, levels_sclStuck hpull hlen⟩

/-! ### Levels and pull-downs -/

/-- In the SCL high phases of a byte SDA carries its bits, most significant first, whoever sends it (20_memory.md R77). -/
theorem byte_levels_high (x : Side) (b : Byte) :
    ((WireSym.byte x b).levels.filter fun l => l.1).map (fun l => l.2) =
      (List.range 8).map fun i => b.getLsbD (7 - i) := by
  cases x <;>
    simp [WireSym.levels, WireSym.blockPulls, WireSym.targetPulls, WireSym.bits, byteBits, blockBit, targetBit,
      List.range_succ, List.replicate_succ]

/-- Settles O42: the sequences are `wire`'s, a cut one is one of `cuts`, and the levels are the two ends' wired-and. -/
theorem transactionWireSequences : Obligations.TransactionWireSequences := by
  unfold Obligations.TransactionWireSequences
  refine ⟨fun n a r d b0 b1 aw ar haw har => ?sequences, fun n a r d => ⟨?writeCut, ?readCut⟩, fun _ => rfl, rfl, rfl, rfl,
    rfl, fun x => ?ackLevels, byte_levels_high, fun _ => rfl, rfl, rfl, fun s ho => ?released⟩
  case sequences =>
    obtain rfl := eq_addressByte false haw
    obtain rfl := eq_addressByte true har
    exact ⟨rfl, rfl, rfl, rfl, rfl, rfl, rfl, rfl⟩
  case writeCut =>
    have hw (w : WireSym) : w ∈ writeSyms a r d → w.Whole := whole_of_mem_writeSyms
    exact ⟨_, rfl, ⟨_, rfl, lostIn_cutSyms n _ hw⟩, _, rfl, stuckIn_cutSyms n _ hw⟩
  case readCut =>
    have hw (w : WireSym) : w ∈ readSyms a r (Config.freeCutBytes n).1 (Config.freeCutBytes n).2 → w.Whole :=
      whole_of_mem_readSyms
    exact ⟨_, _, _, rfl, ⟨_, rfl, lostIn_cutSyms n _ hw⟩, _, rfl, stuckIn_cutSyms n _ hw⟩
  case ackLevels => cases x <;> rfl
  case released => exact ⟨by simp [State.sclOe, ho], fun hh => by simp [State.sdaOe, ho, hh]⟩

end Sys2Proof.Machine
end

section
/-! PROOFS. The commands' steps on the bus as a whole (40_bus_primitives.md R121, 42_decoder.md R160, 41_init.md R142,
43_acquisition.md R170, R171), with the results and the byte order of the two transactions (20_memory.md R82-R85). -/

namespace Sys2Proof.Machine

/-! ### Byte order -/

/-- Exchanging the bytes of a bus word puts the first byte high (20_memory.md R85). -/
theorem swap16_busWord (b0 b1 : Byte) : swap16 (busWord b0 b1) = b0 ++ b1 := by
  apply BitVec.eq_of_toNat_eq
  have h0 := b0.isLt
  have h1 := b1.isLt
  simp only [swap16, busWord, toNat_append_eq, BitVec.extractLsb'_toNat, Nat.shiftRight_eq_div_pow]
  omega

/-- Settles O46: both cases of `norm` as sums. -/
theorem normalisationSwapsBytes : Obligations.NormalisationSwapsBytes := by
  unfold Obligations.NormalisationSwapsBytes
  intro b0 b1
  refine ⟨?bus, rfl, (swap16_busWord b0 b1).symm, ?swapped⟩
  case bus => rw [busWord, toNat_append_eq]; omega
  case swapped => rw [norm, if_pos rfl, toNat_append_eq]; omega

/-! ### Results of a transaction -/

section
variable {lim : Option Rat} {c : ErrCode}

/-- The codes a BusWriteByte can fail with (20_memory.md R82). -/
theorem writeResult_fail {r : WriteReply} (h : writeResult lim r = .fail c) :
    c ∈ [ErrCode.addrNack, .regNack, .dataNack, .arbLost, .timeout] ∧ (c = .timeout → lim ≠ none) := by
  cases r with
  | ack => cases h
  | sclHeld => cases lim <;> cases h; simp
  | _ => cases h; simp

/-- The codes a BusReadWord can fail with (20_memory.md R82). -/
theorem readResult_fail {r : ReadReply} (h : readResult lim r = .fail c) :
    c ∈ [ErrCode.addrNack, .regNack, .raddrNack, .arbLost, .timeout] ∧ (c = .timeout → lim ≠ none) := by
  cases r with
  | ack => cases h
  | sclHeld => cases lim <;> cases h; simp
  | _ => cases h; simp

/-- A write never ends exactly if SCL is held and BUS_TIMEOUT is infinite (20_memory.md R98). -/
theorem writeResult_held_iff (lim : Option Rat) (r : WriteReply) :
    writeResult lim r = .held ↔ r = .sclHeld ∧ lim = none := by
  cases r with
  | sclHeld => cases lim <;> simp [writeResult]
  | _ => simp [writeResult]

/-- A read never ends exactly if SCL is held and BUS_TIMEOUT is infinite (20_memory.md R98). -/
theorem readResult_held_iff (lim : Option Rat) (r : ReadReply) :
    readResult lim r = .held ↔ r = .sclHeld ∧ lim = none := by
  cases r with
  | sclHeld => cases lim <;> simp [readResult]
  | _ => simp [readResult]

end

/-- Settles O29: `writeResult` and `readResult` answer by answer. -/
theorem failureCodesByTransaction : Obligations.FailureCodesByTransaction := by
  unfold Obligations.FailureCodesByTransaction
  exact ⟨fun _ _ _ => writeResult_fail, fun _ _ _ => readResult_fail, writeResult_held_iff, readResult_held_iff,
    fun _ => ⟨rfl, rfl⟩, fun _ => ⟨rfl, rfl, fun _ _ => rfl⟩, rfl⟩

/-! ### WRBYTE and DECODE -/

/-- WRBYTE issued in IDLE is latched and stands before its transfer (30_encoding.md R105, 40_bus_primitives.md R121). -/
theorem exec_wrbyte_idle {s : State} (reg data : Byte) (hs : s.seqState = .idle) :
    exec (.wrbyte reg data) s = .next (startTransfer (latchCommand (.wrbyte reg data) s)) :=
  congrArg _ (acceptCommand_idle _ _ _ s hs (by simp))

/-- The data byte survives the latch: it is IMM16's low byte (30_encoding.md R106). -/
@[simp] theorem latchOf_wrbyte_data (reg data : Byte) : (latchOf (.wrbyte reg data)).data = data := by
  apply BitVec.eq_of_toNat_eq
  have h := data.isLt
  simp only [latchOf, CmdLatch.data, Instr.immBits, BitVec.extractLsb'_toNat, BitVec.toNat_setWidth]
  omega

/-- The transfer of WRBYTE with a listed acknowledge and no cancel pending. -/
theorem sequencerStep_wrbyte {t : State} {ws : List WriteReply} (hu : t.Undisturbed) (hs : t.seqState = .prim)
    (hq : t.seqStep = .xfer) (hop : t.latch.op = 0x1) (hw : t.writeReplies = .ack :: ws) :
    sequencerStep t =
      { t with
        seqState     := .idle
        done         := true
        onBus        := false
        trace        := t.trace ++ [.write t.config.devAddr t.latch.reg t.latch.data (.ok ())]
        writeReplies := ws } := by
  have ⟨_, _, hc⟩ := hu
  rw [sequencerStep_due (stepDue_of_undisturbed hu)]
  simp only [commandStep, hs, primStep, hq, if_pos hop, wrbyteTransfer, writeTransaction_ack _ _ _ _ _ hw, endTransfer,
    afterIssue, hc]
  rfl

/-- Settles O10: the issue, then the one step of the transfer. -/
theorem wrbyteWritesOneDeviceByte : Obligations.WrbyteWritesOneDeviceByte := by
  unfold Obligations.WrbyteWritesOneDeviceByte
  intro s reg data ws hs hu hw
  refine ⟨_, exec_wrbyte_idle reg data hs, ?_⟩
  have e := sequencerStep_wrbyte (t := startTransfer (latchCommand (.wrbyte reg data) s)) hu rfl rfl rfl hw
  have hdata : (startTransfer (latchCommand (.wrbyte reg data) s)).latch.data = data := latchOf_wrbyte_data reg data
  rw [e, hdata, ← hs]
  rfl

/-- Settles O12: in IDLE the command is accepted, and its start is the whole of it. -/
theorem decodeCompletesAtIssue : Obligations.DecodeCompletesAtIssue := by
  unfold Obligations.DecodeCompletesAtIssue
  intro s v hs
  exact congrArg _ (acceptCommand_idle (.decode v) false (startDecode v) s hs (by simp))

/-! ### The waits of INIT -/

/-- Before `wait_until` the step after a wait is not enabled (20_memory.md R88). -/
theorem afterWait_of_lt {s : State} (next : State → State) (hw : s.now < s.waitUntil) : afterWait next s = s :=
  if_neg (not_le.mpr hw)

/-- Settles O20: SETTLE1 and SETTLE2 are `afterWait`, and no cancel is taken in their place. -/
theorem settleWaitIsALowerBound : Obligations.SettleWaitIsALowerBound := by
  unfold Obligations.SettleWaitIsALowerBound
  intro s hs hq hc hw
  rcases sequencerStep_cases s with ⟨-, e⟩ | ⟨-, -, -, hc', -⟩ | ⟨-, -, -, e⟩
  · exact e
  · simp [hc] at hc'
  · rw [e]
    rcases hq with hq | hq <;> simp only [commandStep, hs, initStep, hq, afterWait_of_lt _ hw]

/-! ### READ -/

/-- A READ that is due, with a listed answer of two bytes, stores one pixel (43_acquisition.md R170). -/
theorem sequencerStep_read {s : State} {b0 b1 : Byte} {rs : List ReadReply}
    (hs : s.seqState = .frame ∨ s.seqState = .runFrame) (hq : s.seqStep = .read) (hk : s.k < 64) (hd : s.StepDue)
    (hr : s.readReplies = .ack b0 b1 :: rs) :
    sequencerStep s =
      storePixel b0 b1
        (afterIssue s (.read s.config.devAddr (pixelReg s.k) (.ok (b0, b1))) s.writeReplies rs s.draws) := by
  have hframe : commandStep s = frameStep s := by rcases hs with hs | hs <;> simp only [commandStep, hs]
  rw [sequencerStep_due hd, hframe]
  simp only [frameStep, hq, readPixel, if_pos hk, readTransaction_ack _ _ _ _ _ _ hr]

/-- The buffer after a READ, entry by entry (43_acquisition.md R171). -/
theorem storePixel_pixel (b0 b1 : Byte) (s : State) (i : Fin 64) :
    (storePixel b0 b1 s).pixel i =
      if i.val = s.k then ⟨norm s.config.swap b0 b1, (s.pixel i).band⟩ else s.pixel i := by
  simp only [State.pixel, storePixel_pix, Fin.getElem_fin, setRaw_getElem, eq_comm (a := s.k)]

/-- Settles O22: the step is `storePixel` after the transaction. -/
theorem readStepStoresOnePixel : Obligations.ReadStepStoresOnePixel := by
  unfold Obligations.ReadStepStoresOnePixel
  intro s b0 b1 rs hs hq hk hd hr
  rw [sequencerStep_read hs hq hk hd hr]
  have hlast : (s.k + 1 = 64) = (s.k = 63) := propext (by omega)
  refine ⟨?state, storePixel_pixel b0 b1 _⟩
  case state =>
    simp only [storePixel, afterIssue, hlast]
    rfl

end Sys2Proof.Machine
end

section
/-! PROOFS. Who issues a transaction, and what one that never ends holds (20_memory.md R76, R98, 43_acquisition.md R178,
R180, R181). -/

namespace Sys2Proof.Machine

section
variable {s t : State}

/-! ### The bus under the moves of the host and the environment -/

/-- `t` has the wires' history of `s`, and a transaction in progress or one that hangs exactly if `s` has. -/
def State.SameBus (s t : State) : Prop := t.trace = s.trace ∧ t.onBus = s.onBus ∧ t.hung = s.hung

theorem sameBus_refl (s : State) : s.SameBus s := ⟨rfl, rfl, rfl⟩

theorem issueMove_sameBus {i : Instr} (m : IssueMove s i t) : s.SameBus t := by
  cases m <;> exact sameBus_refl s

/-- No access of the host touches the bus: a command's first transaction is a later step of the sequencer
(20_memory.md R76). -/
theorem hostMove_sameBus {l : HostLine} (m : HostMove s l t) : s.SameBus t := by
  cases m with
  | command _ _ _ _ _ m => exact issueMove_sameBus m
  | _ => exact sameBus_refl s

theorem advanceTime_sameBus (δ : Rat) (s : State) : s.SameBus (advanceTime δ s) := by
  unfold advanceTime
  split <;> exact sameBus_refl s

theorem sampleCancel_sameBus (level : Bool) (s : State) : s.SameBus (sampleCancel level s) := by
  unfold sampleCancel
  split <;> exact sameBus_refl s

/-! ### The transaction of a command step -/

/-- From `s` to `t` one transaction was issued, the one that the position of `s` names, to CONFIG.DEV_ADDR
(20_memory.md R70). -/
def State.Issued (s t : State) : Prop :=
  (∃ reg data res, s.NextWrite reg data ∧ t.trace = s.trace ++ [.write s.config.devAddr reg data res]) ∨
    ∃ reg res, s.NextRead reg ∧ t.trace = s.trace ++ [.read s.config.devAddr reg res]

theorem atTransaction_of_issued (h : s.Issued t) : s.atTransaction = true := by
  rcases h with ⟨reg, data, res, hn, -⟩ | ⟨reg, res, hn, -⟩
  · exact atTransaction_of_nextWrite hn
  · exact atTransaction_of_nextRead hn

theorem afterWait_trace {next : State → State} (hn : (next s).trace = s.trace) :
    (afterWait next s).trace = s.trace := by
  unfold afterWait
  split
  · exact hn
  · rfl

theorem issued_writeTransaction {reg data : Byte} {onOk : State → State} (h : s.NextWrite reg data)
    (hk : ∀ u, (onOk u).trace = u.trace) : s.Issued (writeTransaction reg data onOk s) := by
  refine .inl ⟨reg, data, ?_⟩
  obtain ⟨ws, n, e | ⟨c, -, e⟩ | e⟩ := writeTransaction_cases reg data onOk s <;> rw [e]
  · exact ⟨_, h, hk _⟩
  · exact ⟨_, h, rfl⟩
  · exact ⟨_, h, rfl⟩

theorem issued_readTransaction {reg : Byte} {onOk : Byte → Byte → State → State} (h : s.NextRead reg)
    (hk : ∀ b0 b1 u, (onOk b0 b1 u).trace = u.trace) : s.Issued (readTransaction reg onOk s) := by
  refine .inr ⟨reg, ?_⟩
  obtain ⟨rs, n, ⟨b0, b1, e⟩ | ⟨c, -, e⟩ | e⟩ := readTransaction_cases reg onOk s <;> rw [e]
  · exact ⟨_, h, hk _ _ _⟩
  · exact ⟨_, h, rfl⟩
  · exact ⟨_, h, rfl⟩

/-- INIT issues its three writes at W_PCTL, W_SCLR and W_RST (41_init.md R140). -/
theorem initStep_issues (hs : s.seqState = .init) :
    (initStep s).trace = s.trace ∨ s.Issued (initStep s) := by
  unfold initStep
  split
  next => exact .inl (afterWait_trace rfl)
  next hq => exact .inr (issued_writeTransaction (.inl ⟨hs, .inl ⟨hq, rfl, rfl⟩⟩) fun _ => rfl)
  next hq => exact .inr (issued_writeTransaction (.inl ⟨hs, .inr (.inl ⟨hq, rfl, rfl⟩)⟩) fun _ => rfl)
  next hq => exact .inr (issued_writeTransaction (.inl ⟨hs, .inr (.inr ⟨hq, rfl, rfl⟩)⟩) fun _ => rfl)
  next => exact .inl (afterWait_trace rfl)
  next => exact .inl rfl

/-- PRIM issues the latched transfer (40_bus_primitives.md R121, R122). -/
theorem primStep_issues (hs : s.seqState = .prim) :
    (primStep s).trace = s.trace ∨ s.Issued (primStep s) := by
  unfold primStep
  split
  next hq =>
    split
    next hop => exact .inr (issued_writeTransaction (.inr ⟨hs, hq, hop, rfl, rfl⟩) endTransfer_trace)
    next =>
      split
      next hop => exact .inr (issued_readTransaction (.inr ⟨hs, hq, hop, rfl⟩) fun _ _ _ => endTransfer_trace _)
      next => exact .inl rfl
  next => exact .inl rfl

/-- FRAME and RUN_FRAME issue a read at READ (43_acquisition.md R170). -/
theorem frameStep_issues (hs : s.seqState = .frame ∨ s.seqState = .runFrame) :
    (frameStep s).trace = s.trace ∨ s.Issued (frameStep s) := by
  unfold frameStep
  split
  next hq =>
    unfold readPixel
    split
    next hk => exact .inr (issued_readTransaction (.inl ⟨hs, hq, hk, rfl⟩) storePixel_trace)
    next => exact .inl rfl
  next => exact .inl rfl
  next => exact .inl rfl

theorem commandStep_issues (s : State) :
    (commandStep s).trace = s.trace ∨ s.Issued (commandStep s) := by
  unfold commandStep
  split
  next => exact .inl rfl
  next hs => exact initStep_issues hs
  next hs => exact primStep_issues hs
  next hs => exact frameStep_issues (.inl hs)
  next hs => exact frameStep_issues (.inr hs)
  next => exact .inl (afterWait_trace rfl)
  next => exact .inl rfl

/-- Where the position names a transaction and the command step is taken, a cancel is pending only if that transaction was
in progress (43_acquisition.md R178, R181). -/
theorem onBus_of_due (hd : s.busy = false ∨ s.cancelPend = false ∨ s.inTransaction = true)
    (ha : s.atTransaction = true) : s.cancelPend = false ∨ s.onBus = true := by
  simpa [busy_of_atTransaction ha, State.inTransaction, ha] using hd

/-- The sequencer issues a transaction only as the step of a running command, the next one due. -/
theorem sequencerStep_issues (s : State) :
    (sequencerStep s).trace = s.trace ∨
      s.busy = true ∧ (s.cancelPend = false ∨ s.onBus = true) ∧ s.hung = false ∧ s.rstN = true ∧
        s.Issued (sequencerStep s) := by
  rcases sequencerStep_cases s with ⟨-, e⟩ | ⟨-, -, -, -, -, e⟩ | ⟨hr, hh, hd, e⟩ <;> rw [e]
  · exact .inl rfl
  · exact .inl (cancelStep_trace s)
  · refine (commandStep_issues s).imp_right fun hi => ?_
    have ha := atTransaction_of_issued hi
    exact ⟨busy_of_atTransaction ha, onBus_of_due hd ha, hh, hr, hi⟩

/-! ### A transaction in progress -/

theorem commandMove_onBus (m : CommandMove s t) (ht : t.onBus = true) : s.onBus = true := by
  cases m with
  | stay => exact ht
  | settled => exact ht
  | initDone => exact ht
  | completed => exact ht
  | nextFrame => exact ht
  | wrote => simp [afterIssue] at ht
  | readWord => simp [afterIssue] at ht
  | _ => exact absurd ht Bool.false_ne_true

/-- The sequencer ends a transaction in progress and starts none: `busStart` does. -/
theorem sequencerStep_onBus (s : State) (ht : (sequencerStep s).onBus = true) : s.onBus = true := by
  rcases sequencerStep_move s with e | ⟨-, -, -, e⟩ | ⟨-, -, -, m⟩
  · rwa [e] at ht
  · rwa [e] at ht
  · exact commandMove_onBus m ht

/-- A transaction comes to be in progress only in a running command with no cancel pending (43_acquisition.md R178). -/
theorem busStart_starts (s : State) (ho : s.onBus = false) (ht : (busStart s).onBus = true) :
    s.busy = true ∧ s.cancelPend = false ∧ s.hung = false ∧ s.rstN = true := by
  simp only [busStart_onBus, ho, Bool.false_or, Bool.and_eq_true, Bool.not_eq_true'] at ht
  obtain ⟨⟨⟨hr, hh⟩, hc⟩, ha⟩ := ht
  exact ⟨busy_of_atTransaction ha, hc, hh, hr⟩

/-- A move that leaves the bus alone issues nothing and puts nothing in progress. -/
theorem nothing_of_sameBus {p q : Prop} (h : s.SameBus t) :
    (t.trace = s.trace ∨ p) ∧ (s.onBus = false → t.onBus = true → q) := by
  obtain ⟨htrace, hbus, -⟩ := h
  exact ⟨.inl htrace, fun ho ht => by simp [hbus, ho] at ht⟩

end

/-- Settles O57, by the agent that moves: only the sequencer writes the history, and only `busStart` sets `onBus`. -/
theorem transactionsComeFromRunningCommands : Obligations.TransactionsComeFromRunningCommands := by
  unfold Obligations.TransactionsComeFromRunningCommands
  intro s t hstep
  obtain ⟨es, n, hmove⟩ := step_cases s
  rcases hmove with ⟨-, ls, m, u, e, hm⟩ | ⟨hev, e⟩ | ⟨δ, -, e⟩ | ⟨b, -, e⟩ | ⟨b, -, e⟩ | ⟨hev, e⟩ <;>
    obtain rfl := Host.Outcome.next.inj (hstep.symm.trans e)
  · exact nothing_of_sameBus (s := s) (hostMove_sameBus hm :)
  · refine ⟨(sequencerStep_issues (afterEvent s es n)).imp_right fun hi => ⟨hev, hi⟩, fun ho ht => ?_⟩
    exact absurd (ho.symm.trans (sequencerStep_onBus (afterEvent s es n) ht)) Bool.false_ne_true
  · exact nothing_of_sameBus (s := s) (advanceTime_sameBus δ (afterEvent s es n))
  · exact nothing_of_sameBus (s := s) (sampleCancel_sameBus b (afterEvent s es n))
  · cases b with
    | false => exact ⟨.inl rfl, fun _ ht => absurd ht Bool.false_ne_true⟩
    | true => exact nothing_of_sameBus (sameBus_refl s)
  · refine ⟨.inl (busStart_trace _), fun ho ht => ?_⟩
    obtain ⟨hb, hc, hh, hr⟩ := busStart_starts (afterEvent s es n) ho ht
    exact ⟨hev, hb, hc, hh, hr, busStart_trace _⟩

/-! ### A transaction that never ends -/

section
variable {s t : State}

/-- While a transaction hangs no step of the sequencer is enabled (20_memory.md R98, log 5). -/
theorem sequencerStep_of_hung (h : s.hung = true) : sequencerStep s = s := by
  simp [sequencerStep, h]

/-- No agent but reset ends a transaction that never ends, or issues another meanwhile. -/
theorem step_of_hung (h : s.hung = true) (hreset : ¬ s.resetsNext) (hstep : step s = .next t) :
    t.hung = true ∧ t.trace = s.trace := by
  obtain ⟨es, n, ⟨-, ls, m, hm⟩ | ⟨-, rfl⟩ | ⟨hr, -⟩ | ⟨_, _, _, _, _, rfl⟩⟩ := step_agents hstep
  · obtain ⟨htrace, -, hhung⟩ := hostMove_sameBus hm
    exact ⟨hhung.trans h, htrace⟩
  · rw [sequencerStep_of_hung (s := afterEvent s es n) h]
    exact ⟨h, rfl⟩
  · exact absurd hr hreset
  · exact ⟨h, rfl⟩

/-- `sda_oe` through a transaction that hangs depends on its place in the history alone (log 26). -/
theorem sdaOe_of_hung (h : s.hung = true) : s.sdaOe = Config.freeSdaOe s.trace.length := if_pos h

/-- A BusWriteByte that is due and whose listed answer holds SCL for ever (20_memory.md R98). -/
theorem sequencerStep_writeHeld {reg data : Byte} {r : WriteReply} {ws : List WriteReply} (hd : s.StepDue)
    (hn : s.NextWrite reg data) (hw : s.writeReplies = r :: ws) (hres : writeResult s.cfg.busTimeout r = .held) :
    sequencerStep s =
      { afterIssue s (.write s.config.devAddr reg data .held) ws s.readReplies s.draws with hung := true } := by
  obtain ⟨onOk, e⟩ := commandStep_nextWrite hn
  simp only [sequencerStep_due hd, e, writeTransaction_listed _ _ _ _ _ _ hw, hres]

/-- A BusReadWord that is due and whose listed answer holds SCL for ever (20_memory.md R98). -/
theorem sequencerStep_readHeld {reg : Byte} {r : ReadReply} {rs : List ReadReply} (hd : s.StepDue)
    (hn : s.NextRead reg) (hr : s.readReplies = r :: rs) (hres : readResult s.cfg.busTimeout r = .held) :
    sequencerStep s =
      { afterIssue s (.read s.config.devAddr reg .held) s.writeReplies rs s.draws with hung := true } := by
  obtain ⟨onOk, e⟩ := commandStep_nextRead hn
  simp only [sequencerStep_due hd, e, readTransaction_listed _ _ _ _ _ hr, hres]

end

/-- Settles O31: no move but reset touches a hung bus, and a held answer makes the due transaction hang. -/
theorem heldBusHoldsTheSequencer : Obligations.HeldBusHoldsTheSequencer := by
  unfold Obligations.HeldBusHoldsTheSequencer
  refine ⟨fun s h => ⟨sequencerStep_of_hung h, by simp [State.sclOe, h], fun t hreset hstep => ?kept⟩,
    fun s reg data r ws hd hn hw hres => sequencerStep_writeHeld hd hn hw hres,
    fun s reg r rs hd hn hr hres => sequencerStep_readHeld hd hn hr hres⟩
  case kept =>
    obtain ⟨hhung, htrace⟩ := step_of_hung h hreset hstep
    exact ⟨hhung, htrace, by rw [sdaOe_of_hung hhung, sdaOe_of_hung h, htrace]⟩

end Sys2Proof.Machine
end

section
/-! PROOFS. The decoder and the encoder are each other's inverse, row by row of the table of 30_encoding.md R102
(R100-R107). -/

namespace Sys2Proof

/-! ### What the decoder answers -/

theorem opField_toNat (w : Word) : (opField w).toNat = w.toNat % 16 := by
  simp [opField, BitVec.extractLsb'_toNat]

/-- A word decodes exactly if its OP is legal and its row's test passes (R102, R105). -/
theorem decodeWord_eq_ok_iff (w : Word) (i : Instr) :
    decodeWord w = .ok i ↔
      w.toNat % 16 < 8 ∧ w &&& cmdMask (w.toNat % 16) = cmdMatch (w.toNat % 16) ∧
        assembleOperands (w.toNat % 16) w = i := by
  simp only [decodeWord, opField_toNat]
  split
  · simp; omega
  · split <;> simp_all

/-- R103: OP alone makes a word an illegal OP. -/
theorem decodeWord_eq_illegalOp_iff (w : Word) : decodeWord w = .error .illegalOp ↔ 8 ≤ w.toNat % 16 := by
  simp only [decodeWord, opField_toNat]
  split
  · simpa
  · split <;> simp <;> omega

/-- R104: the test of a legal OP's row fails. -/
theorem decodeWord_eq_reserved {w : Word} (hop : w.toNat % 16 < 8)
    (ht : w &&& cmdMask (w.toNat % 16) ≠ cmdMatch (w.toNat % 16)) : decodeWord w = .error .reserved := by
  simp only [decodeWord, opField_toNat]
  rw [if_neg (by omega), if_neg ht]

/-! ### Decode of encode -/

theorem encode_toNat (i : Instr) :
    (encode i).toNat = i.op.toNat + 256 * i.regBits.toNat + 65536 * i.immBits.toNat := packFields_toNat _ _ _

theorem op_toNat_lt (i : Instr) : i.op.toNat < 8 := by cases i <;> simp [Instr.op]

theorem encode_toNat_mod (i : Instr) : (encode i).toNat % 16 = i.op.toNat := by
  have := op_toNat_lt i
  rw [encode_toNat]
  omega

/-- The encoding of a command passes the test of its own row (R102). -/
theorem encode_and_cmdMask (i : Instr) : encode i &&& cmdMask i.op.toNat = cmdMatch i.op.toNat := by
  cases i with
  | nop => exact Laws.MaskMatch.nop
  | wrbyte r d => exact Laws.MaskMatch.wrbyte r d
  | rdword r => exact Laws.MaskMatch.rdword r
  | decode v => exact Laws.MaskMatch.decode v
  | init => exact Laws.MaskMatch.init
  | frame => exact Laws.MaskMatch.frame
  | run => exact Laws.MaskMatch.run
  | stop => exact Laws.MaskMatch.stop

/-- The data byte of WRBYTE is the low byte of IMM16 (R106). -/
theorem dataField_packFields (op : BitVec 4) (reg data : Byte) :
    dataField (packFields op reg (data.zeroExtend 16)) = data := by
  apply BitVec.eq_of_toNat_eq
  have := op.isLt
  have := reg.isLt
  have := data.isLt
  simp only [dataField, BitVec.extractLsb'_toNat, packFields_toNat, Nat.shiftRight_eq_div_pow, BitVec.toNat_setWidth]
  omega

/-- The operands are read back from the fields they were packed in (R106). -/
theorem assembleOperands_encode (i : Instr) : assembleOperands i.op.toNat (encode i) = i := by
  cases i with
  | wrbyte r d => exact congrArg₂ Instr.wrbyte (regField_packFields _ _ _) (dataField_packFields _ _ _)
  | rdword r => exact congrArg Instr.rdword (regField_packFields _ _ _)
  | decode v => exact congrArg Instr.decode (immField_packFields _ _ _)
  | _ => rfl

/-- Settles O2: OP selects the command's row, whose test the encoding passes, and the fields give the operands back. -/
theorem everyCommandDecodesFromItsEncoding : Obligations.EveryCommandDecodesFromItsEncoding := by
  unfold Obligations.EveryCommandDecodesFromItsEncoding
  intro i
  rw [decodeWord_eq_ok_iff, encode_toNat_mod]
  exact ⟨op_toNat_lt i, encode_and_cmdMask i, assembleOperands_encode i⟩

/-! ### Encode of decode -/

theorem encode_wrbyte_fields (w : Word) :
    encode (.wrbyte (regField w) (dataField w)) = 0x00000001 ||| (w &&& ~~~0xFF0000FF) := by
  show packFields 0x1 (regField w) ((dataField w).zeroExtend 16) = _
  ext j hj
  interval_cases j <;> simp [packFields, regField, dataField]

theorem encode_rdword_fields (w : Word) :
    encode (.rdword (regField w)) = 0x00000002 ||| (w &&& ~~~0xFFFF00FF) := by
  show packFields 0x2 (regField w) 0 = _
  ext j hj
  interval_cases j <;> simp [packFields, regField]

theorem encode_decode_fields (w : Word) :
    encode (.decode (immField w)) = 0x00000003 ||| (w &&& ~~~0x0000FFFF) := by
  show packFields 0x3 0 (immField w) = _
  ext j hj
  interval_cases j <;> simp [packFields, immField]

/-- The bits a row's mask leaves free are the bits its operands are read from (R102, R106); the rows of the commands
without operands leave none. -/
theorem encode_assembleOperands {n : Nat} (hn : n < 8) (w : Word) :
    encode (assembleOperands n w) = cmdMatch n ||| (w &&& ~~~cmdMask n) := by
  match n, hn with
  | 1, _ => exact encode_wrbyte_fields w
  | 2, _ => exact encode_rdword_fields w
  | 3, _ => exact encode_decode_fields w
  | 0, _ | 4, _ | 5, _ | 6, _ | 7, _ =>
      simp [encode, assembleOperands, packFields, cmdMatch, cmdMask, Instr.op, Instr.regBits, Instr.immBits]

/-- A word that passes a row's test is MATCH and the word's free bits. -/
theorem match_or_of_test {w m v : Word} (h : w &&& m = v) : v ||| (w &&& ~~~m) = w := by
  rw [← h, ← BitVec.and_or_distrib_left, BitVec.or_not_self, BitVec.and_allOnes]

theorem encode_of_decodeWord {w : Word} {i : Instr} (h : decodeWord w = .ok i) : encode i = w := by
  obtain ⟨hop, ht, rfl⟩ := (decodeWord_eq_ok_iff w i).mp h
  rw [encode_assembleOperands hop, match_or_of_test ht]

/-- Settles O3: a row's test fixes every bit but the operands'. -/
theorem everyLegalWordIsAnEncoding : Obligations.EveryLegalWordIsAnEncoding := fun _ _ => encode_of_decodeWord

/-! ### The legal words -/

/-- Every row's mask covers OP, and its match is the row's own number there (R102). -/
theorem toNat_mod_of_test {n : Nat} (hn : n < 8) {w : Word} (ht : w &&& cmdMask n = cmdMatch n) :
    w.toNat % 16 = n := by
  have hmask : opField (cmdMask n) = 0xF := by interval_cases n <;> rfl
  have hmatch : (opField (cmdMatch n)).toNat = n := by interval_cases n <;> rfl
  have hand : opField (w &&& cmdMask n) = opField w &&& opField (cmdMask n) := BitVec.extractLsb'_and
  rw [ht, hmask] at hand
  rw [← opField_toNat, ← hmatch, hand]
  exact congrArg _ BitVec.and_allOnes.symm

/-- The row's test alone decides legality: it fixes OP too (R102). -/
theorem decodeWord_isOk_iff (w : Word) :
    (∃ i, decodeWord w = .ok i) ↔ ∃ n < 8, w &&& cmdMask n = cmdMatch n := by
  constructor
  · rintro ⟨i, h⟩
    obtain ⟨hop, ht, -⟩ := (decodeWord_eq_ok_iff w i).mp h
    exact ⟨_, hop, ht⟩
  · rintro ⟨n, hn, ht⟩
    obtain rfl := toNat_mod_of_test hn ht
    exact ⟨_, (decodeWord_eq_ok_iff w _).mpr ⟨hn, ht, rfl⟩⟩

theorem toNat_of_decodeWord {w : Word} {i : Instr} (h : decodeWord w = .ok i) :
    w.toNat = i.op.toNat + 256 * i.regBits.toNat + 65536 * i.immBits.toNat := by
  rw [← encode_of_decodeWord h, encode_toNat]

theorem op_of_decodeWord {w : Word} {i : Instr} (h : decodeWord w = .ok i) : i.op.toNat = w.toNat % 16 := by
  rw [← encode_of_decodeWord h, encode_toNat_mod]

/-- Settles O4: the eight rows written out, and the fields of a legal word from its encoding. -/
theorem legalWordsAreTheTableRows : Obligations.LegalWordsAreTheTableRows := by
  unfold Obligations.LegalWordsAreTheTableRows
  intro w
  refine ⟨decodeWord_eq_illegalOp_iff w, (decodeWord_isOk_iff w).trans ?rows, fun i => op_of_decodeWord,
    fun r d h => ?wrbyte, fun r h => ?rdword, fun v h => ?decode⟩
  case rows => simp only [Nat.exists_lt_succ_left, Nat.not_lt_zero, false_and, exists_false, or_false, cmdMask, cmdMatch]
  case wrbyte =>
    have hr := r.isLt
    have hd := d.isLt
    have e : w.toNat = 1 + 256 * r.toNat + 65536 * (d.zeroExtend 16).toNat := toNat_of_decodeWord h
    rw [BitVec.toNat_setWidth] at e
    omega
  case rdword =>
    have hr := r.isLt
    have e : w.toNat = 2 + 256 * r.toNat + 65536 * 0 := toNat_of_decodeWord h
    omega
  case decode =>
    have e : w.toNat = 3 + 256 * 0 + 65536 * v.toNat := toNat_of_decodeWord h
    omega

/-- Settles O1: the decoder run on the words of the tables. -/
theorem tableWordsDecode : Obligations.TableWordsDecode := by
  unfold Obligations.TableWordsDecode
  decide

end Sys2Proof
end

section
/-! PROOFS. What the assembler gives for the commands with operands (30_encoding.md R108, R109). -/

namespace Sys2Proof.Machine

/-! ### Operand ranges -/

theorem assembleCmd_wrbyte (r d : Nat) :
    assembleCmd (.wrbyte r d) =
      if r ≤ 0xFF ∧ d ≤ 0xFF then some (.wrbyte (BitVec.ofNat 8 r) (BitVec.ofNat 8 d)) else none := by
  simp [assembleCmd, AsmCmd.wellFormed]

theorem assembleCmd_rdword (r : Nat) :
    assembleCmd (.rdword r) = if r ≤ 0xFF then some (.rdword (BitVec.ofNat 8 r)) else none := by
  simp [assembleCmd, AsmCmd.wellFormed]

theorem assembleCmd_decode (v : Nat) :
    assembleCmd (.decode v) = if v ≤ 0xFFFF then some (.decode (BitVec.ofNat 16 v)) else none := by
  simp [assembleCmd, AsmCmd.wellFormed]

theorem assembleCmd_rdpix (i : Nat) :
    assembleCmd (.rdpix i) = if i ≤ 63 then some (.rdword (pixelReg i)) else none := by
  simp [assembleCmd, AsmCmd.wellFormed]

/-! ### The words of operands in range -/

theorem encode_eq_ofNat {i : Instr} {n : Nat}
    (h : i.op.toNat + 256 * i.regBits.toNat + 65536 * i.immBits.toNat = n) : encode i = BitVec.ofNat 32 n := by
  rw [← h, ← encode_toNat, BitVec.ofNat_toNat, BitVec.setWidth_eq]

theorem encode_wrbyte {r d : Nat} (hr : r ≤ 0xFF) (hd : d ≤ 0xFF) :
    encode (.wrbyte (BitVec.ofNat 8 r) (BitVec.ofNat 8 d)) = BitVec.ofNat 32 (1 + 256 * r + 65536 * d) := by
  apply encode_eq_ofNat
  show 1 + 256 * (r % 2 ^ 8) + 65536 * ((BitVec.ofNat 8 d).zeroExtend 16).toNat = _
  rw [BitVec.toNat_setWidth, BitVec.toNat_ofNat]
  omega

theorem encode_rdword {r : Nat} (hr : r ≤ 0xFF) :
    encode (.rdword (BitVec.ofNat 8 r)) = BitVec.ofNat 32 (2 + 256 * r) := by
  apply encode_eq_ofNat
  show 2 + 256 * (r % 2 ^ 8) + 65536 * 0 = _
  omega

theorem encode_decode {v : Nat} (hv : v ≤ 0xFFFF) :
    encode (.decode (BitVec.ofNat 16 v)) = BitVec.ofNat 32 (3 + 65536 * v) := by
  apply encode_eq_ofNat
  show 3 + 256 * 0 + 65536 * (v % 2 ^ 16) = _
  omega

/-- Settles O60: the range of each operand, then the word of the command. -/
theorem pseudoInstructionsExpand : Obligations.PseudoInstructionsExpand := by
  unfold Obligations.PseudoInstructionsExpand
  refine ⟨rfl, rfl, rfl, fun i hi => ?rdpix, fun i hi => ?rdpixOut, fun r d => ?wrbyte, fun r => ?rdword,
    fun v => ?decode⟩
  case rdpix =>
    rw [assembleCmd_rdpix, if_pos hi, Option.map_some, pixelReg, encode_rdword (by omega), Nat.mul_comm 256]
  case rdpixOut => rw [assembleCmd_rdpix, if_neg (by omega)]
  case wrbyte =>
    rw [assembleCmd_wrbyte]
    split
    next h => rw [Option.map_some, encode_wrbyte h.1 h.2]
    next => rfl
  case rdword =>
    rw [assembleCmd_rdword]
    split
    next h => rw [Option.map_some, encode_rdword h]
    next => rfl
  case decode =>
    rw [assembleCmd_decode]
    split
    next h => rw [Option.map_some, encode_decode h]
    next => rfl

end Sys2Proof.Machine
end

section
/-! PROOFS. The issue of a command: the host's write to CMD, the checks of 30_encoding.md R105, the start clauses, and
what an issue leaves unchanged. -/

namespace Sys2Proof.Machine

/-- Raising a command error is what the statements call a command error (60_exceptions.md R227). -/
theorem raiseCmdErr_eq_withCmdErr (c : CmdCause) (s : State) : raiseCmdErr c s = s.withCmdErr c := rfl

/-! ### The write to CMD -/

section
variable {s u : State} {w : Word}

theorem hostWrite_cmd (hr : u.rstN = true) : hostWrite 2 w u = issueCommand w u := by
  simp [hostWrite, hr]

/-- A released block's step that writes CMD is the issue of the word (30_encoding.md R105). -/
theorem step_of_writes_cmd (hr : s.rstN = true) (h : s.Writes 2 w u) : step s = issueCommand w u :=
  (step_of_writes h).trans (hostWrite_cmd ((writes_rstN h).trans hr))

theorem issueCommand_ok {i : Instr} (h : decodeWord w = .ok i) : issueCommand w u = exec i u := by
  simp [issueCommand, h]

theorem issueCommand_error {e : DecodeError} (h : decodeWord w = .error e) :
    issueCommand w u = .next (u.withCmdErr (causeOf e)) := by
  simp only [issueCommand, h, raiseCmdErr_eq_withCmdErr]

end

/-- Settles O5: the step is the issue of the word, which runs what it decodes to. -/
theorem stepRunsTheDecodedCommand : Obligations.StepRunsTheDecodedCommand := by
  unfold Obligations.StepRunsTheDecodedCommand
  intro s u w i hr hw hd
  rw [step_of_writes_cmd hr hw, issueCommand_ok hd]

/-- Settles O6: the decoder's two rejections. -/
theorem rejectedWordOnlyRaisesItsCommandError : Obligations.RejectedWordOnlyRaisesItsCommandError := by
  unfold Obligations.RejectedWordOnlyRaisesItsCommandError
  intro s u w hr hw
  rw [step_of_writes_cmd hr hw]
  exact ⟨fun hop => issueCommand_error ((decodeWord_eq_illegalOp_iff w).mpr hop),
    fun hop ht => issueCommand_error (decodeWord_eq_reserved hop ht)⟩

/-! ### The checks before the start -/

section
variable {s : State} (i : Instr) (needsInit : Bool) (start : State → State)

theorem acceptCommand_halted (hs : s.seqState = .halted) :
    acceptCommand i needsInit start s = s.withCmdErr .halted := if_pos hs

/-- HALTED is not busy (10_state.md R22). -/
theorem seqState_ne_halted_of_busy (hb : s.busy = true) : s.seqState ≠ .halted := fun hs => by
  simp [State.busy, SeqState.busy, hs] at hb

theorem acceptCommand_busy (hb : s.busy = true) : acceptCommand i needsInit start s = s.withCmdErr .busy := by
  rw [acceptCommand, if_neg (seqState_ne_halted_of_busy hb), if_pos hb,
    raiseCmdErr_eq_withCmdErr]

theorem acceptCommand_notInit (hs : s.seqState = .idle) (hd : s.initDone = false) :
    acceptCommand i true start s = s.withCmdErr .notInit := by
  simp [acceptCommand, State.busy, SeqState.busy, hs, hd, raiseCmdErr_eq_withCmdErr]

end

/-- Every command but NOP and STOP goes through the checks of R105. -/
theorem exec_eq_acceptCommand {i : Instr} (hnop : i ≠ .nop) (hstop : i ≠ .stop) :
    ∃ needsInit start, ∀ s, exec i s = .next (acceptCommand i needsInit start s) := by
  cases i with
  | nop => exact absurd rfl hnop
  | stop => exact absurd rfl hstop
  | _ => exact ⟨_, _, fun _ => rfl⟩

theorem exec_stop_halted {s : State} (hs : s.seqState = .halted) : exec .stop s = .next (s.withCmdErr .halted) :=
  congrArg _ (if_pos hs)

/-- Settles O16: the first two checks of R105; STOP makes the one of HALTED itself. -/
theorem busyAndHaltedRejectCommands : Obligations.BusyAndHaltedRejectCommands := by
  unfold Obligations.BusyAndHaltedRejectCommands
  refine fun s i => ⟨fun hb hnop hstop => ?busy, fun hs hnop => ?halted⟩
  case busy =>
    obtain ⟨needsInit, start, e⟩ := exec_eq_acceptCommand hnop hstop
    rw [e, acceptCommand_busy _ _ _ hb]
  case halted =>
    by_cases hstop : i = .stop
    · rw [hstop, exec_stop_halted hs]
    · obtain ⟨needsInit, start, e⟩ := exec_eq_acceptCommand hnop hstop
      rw [e, acceptCommand_halted _ _ _ hs]

/-- Settles O15: the third check of R105. -/
theorem acquisitionNeedsInit : Obligations.AcquisitionNeedsInit := by
  unfold Obligations.AcquisitionNeedsInit
  exact fun s hs hd => ⟨congrArg _ (acceptCommand_notInit _ _ hs hd), congrArg _ (acceptCommand_notInit _ _ hs hd)⟩

/-! ### The start clauses -/

/-- Settles O9: in IDLE both commands are accepted. -/
theorem transferCommandsStart : Obligations.TransferCommandsStart := by
  unfold Obligations.TransferCommandsStart
  exact fun s reg data hs => ⟨exec_wrbyte_idle reg data hs, exec_rdword_idle reg hs⟩

/-- Settles O13: in IDLE INIT is accepted, since it does not need INIT_DONE. -/
theorem initStarts : Obligations.InitStarts := by
  unfold Obligations.InitStarts
  exact fun s hs => congrArg _ (acceptCommand_idle .init false startInit s hs (by simp))

/-- Settles O14: in IDLE with INIT_DONE = 1 both commands are accepted. -/
theorem acquisitionCommandsStart : Obligations.AcquisitionCommandsStart := by
  unfold Obligations.AcquisitionCommandsStart
  exact fun s hs hd => ⟨congrArg _ (acceptCommand_idle .frame true startFrame s hs fun _ => hd),
    congrArg _ (acceptCommand_idle .run true startRunFrame s hs fun _ => hd)⟩

/-! ### What an issue leaves unchanged -/

section
variable {s t : State} {i : Instr}

theorem issueMove_of_exec (h : exec i s = .next t) : IssueMove s i t := by
  obtain ⟨t', ht', m⟩ := exec_move i s
  rw [h] at ht'
  injection ht' with e
  exact e ▸ m

/-- `t` is `s` with no fields written but those that an issue can write: the position, `cmd_latch`, `cancel_pend` and
`wait_until`, the command error, DONE, INIT_DONE and FRAME_VALID, and RAW (30_encoding.md R105). -/
def State.IssueWrote (s t : State) : Prop :=
  ∃ seqState seqStep k latch cancelPend waitUntil cmdErr cmdCause done initDone frameValid raw,
    t = { s with
          seqState := seqState, seqStep := seqStep, k := k, latch := latch, cancelPend := cancelPend,
          waitUntil := waitUntil, cmdErr := cmdErr, cmdCause := cmdCause, done := done, initDone := initDone,
          frameValid := frameValid, raw := raw }

theorem issueMove_issueWrote (m : IssueMove s i t) : s.IssueWrote t := by
  cases m <;> exact ⟨_, _, _, _, _, _, _, _, _, _, _, _, rfl⟩

/-- Of the commands only DECODE writes RAW and DONE at its issue (42_decoder.md R160). -/
theorem issueMove_raw_done (m : IssueMove s i t) (hi : ∀ v, i ≠ .decode v) : t.raw = s.raw ∧ t.done = s.done := by
  cases m with
  | decoded v => exact absurd rfl (hi v)
  | _ => exact ⟨rfl, rfl⟩

/-- Of the commands only INIT writes INIT_DONE and `wait_until` at its issue (41_init.md R140). -/
theorem issueMove_initDone_waitUntil (m : IssueMove s i t) (hi : i ≠ .init) :
    t.initDone = s.initDone ∧ t.waitUntil = s.waitUntil := by
  cases m with
  | initStarted => exact absurd rfl hi
  | _ => exact ⟨rfl, rfl⟩

/-- Of the commands only FRAME and RUN write FRAME_VALID and `k` at their issue (43_acquisition.md R170, R174). -/
theorem issueMove_frameValid_k (m : IssueMove s i t) (hframe : i ≠ .frame) (hrun : i ≠ .run) :
    t.frameValid = s.frameValid ∧ t.k = s.k := by
  cases m with
  | frameStarted => exact absurd rfl hframe
  | runStarted => exact absurd rfl hrun
  | _ => exact ⟨rfl, rfl⟩

/-- Of the commands only STOP writes `cancel_pend` at its issue (43_acquisition.md R177). -/
theorem issueMove_cancelPend (m : IssueMove s i t) (hi : i ≠ .stop) : t.cancelPend = s.cancelPend := by
  cases m with
  | stopped => exact absurd rfl hi
  | _ => rfl

end

/-- Settles O18: an issue is one of the moves, each of which writes only its own command's fields. -/
theorem commandIssueFrame : Obligations.CommandIssueFrame := by
  unfold Obligations.CommandIssueFrame
  intro i s t h
  have m := issueMove_of_exec h
  have hraw := issueMove_raw_done m
  have hinit := issueMove_initDone_waitUntil m
  have hframe := issueMove_frameValid_k m
  have hcancel := issueMove_cancelPend m
  obtain ⟨_, _, _, _, _, _, _, _, _, _, _, _, rfl⟩ := issueMove_issueWrote m
  exact ⟨rfl, rfl, rfl, rfl, rfl, rfl, rfl, rfl, rfl, rfl, rfl, rfl, rfl, rfl, rfl, rfl, rfl, rfl, rfl, rfl, rfl, rfl,
    rfl, rfl, rfl, rfl, hraw, hinit, hframe, hcancel⟩

end Sys2Proof.Machine
end

section
/-! PROOFS. What a step of the sequencer leaves unchanged, NOP, and the reads of the host (40_bus_primitives.md
R120-R125). -/

namespace Sys2Proof.Machine

/-! ### The frame of a sequencer step -/

section
variable {s t : State}

/-- What the cancel step and every command move give, the sequencer's step gives. -/
theorem sequencerStep_of_moves {p : State → Prop} (hcancel : p (cancelStep s)) (hmove : ∀ t, CommandMove s t → p t) :
    p (sequencerStep s) := by
  rcases sequencerStep_move s with e | ⟨-, -, -, e⟩ | ⟨-, -, -, m⟩
  · exact e.symm ▸ hmove s .stay
  · exact e.symm ▸ hcancel
  · exact hmove _ m

/-- `t` has the fields of `s` that other agents write and the sequencer never does, besides CONFIG: `cmd_latch`, the command
error, `cancel_prev`, the read port, `rst_n`, the time, the parameters and the lists of the order and of the host. -/
def State.SameOutsideSequencer (s t : State) : Prop :=
  t.latch = s.latch ∧ t.cmdErr = s.cmdErr ∧ t.cmdCause = s.cmdCause ∧ t.cancelPrev = s.cancelPrev ∧
    t.hRdata = s.hRdata ∧ t.rstN = s.rstN ∧ t.now = s.now ∧ t.cfg = s.cfg ∧ t.schedule = s.schedule ∧
    t.program = s.program

theorem sameOutsideSequencer_refl (s : State) : s.SameOutsideSequencer s :=
  ⟨rfl, rfl, rfl, rfl, rfl, rfl, rfl, rfl, rfl, rfl⟩

theorem sameOutsideSequencer_endTransfer (h : s.SameOutsideSequencer t) : s.SameOutsideSequencer (endTransfer t) := by
  simpa [State.SameOutsideSequencer] using h

theorem commandMove_sameOutsideSequencer (m : CommandMove s t) : s.SameOutsideSequencer t := by
  cases m with
  | wrote => exact sameOutsideSequencer_endTransfer (sameOutsideSequencer_refl s)
  | readWord => exact sameOutsideSequencer_endTransfer (sameOutsideSequencer_refl s)
  | _ => exact sameOutsideSequencer_refl s

/-- Of the command moves only RDWORD's transfer writes RAW (40_bus_primitives.md R122). -/
theorem commandMove_raw (m : CommandMove s t) (hs : s.seqState ≠ .prim) : t.raw = s.raw := by
  cases m with
  | wrote => exact endTransfer_raw _
  | readWord _ _ _ _ hprim => exact absurd hprim hs
  | _ => rfl

/-- Of the command moves only READ and STATS write the pixel buffer (43_acquisition.md R171, R172). -/
theorem commandMove_pix (m : CommandMove s t) (hframe : s.seqState ≠ .frame) (hrun : s.seqState ≠ .runFrame) :
    t.pix = s.pix := by
  cases m with
  | wrote => exact endTransfer_pix _
  | readWord => exact endTransfer_pix _
  | readPixel _ _ _ _ hs => exact absurd hs (not_or_intro hframe hrun)
  | completed hs => exact absurd hs (not_or_intro hframe hrun)
  | _ => rfl

/-- Of the command moves only INIT's last writes INIT_DONE (41_init.md R140). -/
theorem commandMove_initDone (m : CommandMove s t) (hs : s.seqState ≠ .init) : t.initDone = s.initDone := by
  cases m with
  | initDone hinit => exact absurd hinit hs
  | wrote => exact endTransfer_initDone _
  | readWord => exact endTransfer_initDone _
  | _ => rfl

@[simp] theorem endTransfer_pixel (s : State) (i : Fin 64) : (endTransfer s).pixel i = s.pixel i :=
  congrArg (·[i]) (endTransfer_pix s)

/-- The bands are all that STATS writes of the pixel buffer (43_acquisition.md R172). -/
@[simp] theorem completeFrame_pixel_raw (s : State) (i : Fin 64) : ((completeFrame s).pixel i).raw = (s.pixel i).raw := by
  simp [State.pixel]

/-- A READ writes the raw word of entry `k` and STATS writes none (43_acquisition.md R171, R172). -/
theorem commandMove_pixel_raw (m : CommandMove s t) {i : Fin 64} (hi : i.val ≠ s.k) :
    (t.pixel i).raw = (s.pixel i).raw := by
  cases m with
  | wrote => exact congrArg Pixel.raw (endTransfer_pixel _ i)
  | readWord => exact congrArg Pixel.raw (endTransfer_pixel _ i)
  | readPixel => exact congrArg Pixel.raw ((storePixel_pixel _ _ _ i).trans (if_neg hi))
  | completed => exact completeFrame_pixel_raw s i
  | _ => rfl

end

/-- Settles O19: no move writes what is outside the sequencer, and each other field is written by the moves of its own
states; the cancel step writes none of them. -/
theorem sequencerStepFrame : Obligations.SequencerStepFrame := by
  unfold Obligations.SequencerStepFrame
  intro s
  obtain ⟨hlatch, herr, hcause, hprev, hport, hrst, hnow, hcfg, hschedule, hprogram⟩ :=
    sequencerStep_of_moves (p := s.SameOutsideSequencer) (sameOutsideSequencer_refl s)
      fun _ => commandMove_sameOutsideSequencer
  refine ⟨sequencerStep_config s, hlatch, herr, hcause, hprev, hport, hrst, hnow, hcfg, hschedule, hprogram,
    sequencerStep_onBus s, fun hs => ?raw, fun hframe hrun => ?pix, fun hs => ?initDone, fun i hi => ?pixelRaw⟩
  case raw => exact sequencerStep_of_moves (p := (·.raw = s.raw)) rfl fun _ m => commandMove_raw m hs
  case pix => exact sequencerStep_of_moves (p := (·.pix = s.pix)) rfl fun _ m => commandMove_pix m hframe hrun
  case initDone => exact sequencerStep_of_moves (p := (·.initDone = s.initDone)) rfl fun _ m => commandMove_initDone m hs
  case pixelRaw =>
    exact sequencerStep_of_moves (p := fun t => (t.pixel i).raw = (s.pixel i).raw) rfl fun _ m =>
      commandMove_pixel_raw m hi

/-! ### NOP -/

/-- Of the words with OP = 0 only the word 0 passes the row's test: the rest of NOP is must-be-zero (30_encoding.md R102,
R104). -/
theorem decodeWord_eq_reserved_of_op_zero {w : Word} (hop : w.toNat % 16 = 0) (hw : w ≠ 0) :
    decodeWord w = .error .reserved := by
  have htest : w &&& cmdMask 0 ≠ cmdMatch 0 := by
    have hmask : w &&& cmdMask 0 = w := BitVec.and_allOnes
    rwa [hmask]
  exact decodeWord_eq_reserved (by omega) (by rwa [hop])

/-- Settles O8: NOP's issue is the identity, its word is its encoding, and any other word with OP = 0 is rejected. -/
theorem nopChangesNothing : Obligations.NopChangesNothing := by
  unfold Obligations.NopChangesNothing
  refine ⟨fun _ => rfl, everyCommandDecodesFromItsEncoding .nop, fun s u w hr hw hop hne => ?reserved⟩
  case reserved =>
    rw [step_of_writes_cmd hr hw, issueCommand_error (decodeWord_eq_reserved_of_op_zero hop hne)]
    rfl

/-! ### Host reads -/

/-- The host's step when both lists name it runs the host's next line. -/
theorem step_of_hostLine {s : State} {l : HostLine} {es : List Event} {ls : List HostLine}
    (hs : s.schedule = .host :: es) (hp : s.program = l :: ls) :
    step s = runHostLine l { s with schedule := es, program := ls } := by
  rw [step_of_schedule hs]
  simp only [runEvent, hostStep, hp]

/-- A POLL is a read that leaves its line in place until the masked value is seen (30_encoding.md R108). -/
theorem runHostLine_poll (a : BitVec 8) (m v : Word) (s : State) :
    runHostLine (.poll a m v) s =
      .next { hostRead a s with
              program := if readReg s a &&& m = v then s.program else .poll a m v :: s.program } := by
  unfold runHostLine
  dsimp only
  split <;> rfl

/-- Settles O37: both lines are a `hostRead`, which shows the register of the state whose lists have moved on. -/
theorem hostReadsHaveNoSideEffect : Obligations.HostReadsHaveNoSideEffect := by
  unfold Obligations.HostReadsHaveNoSideEffect
  intro s a es ls hs
  refine ⟨fun hp => step_of_hostLine hs hp, fun m v hp => ?poll⟩
  case poll =>
    rw [step_of_hostLine hs hp, runHostLine_poll, hp]
    rfl

end Sys2Proof.Machine
end

section
/-! PROOFS. INIT from its issue to INIT_DONE (41_init.md R140-R143): its run under a schedule that does not disturb it,
and the moves that write INIT_DONE. -/

namespace Sys2Proof.Machine

section
variable {s t : State}

/-! ### Runs of scheduled steps -/

theorem runSteps_succ (n : Nat) (h : step s = .next t) : runSteps (n + 1) s = runSteps n t := by
  simp only [runSteps, h]

/-- A timer step of positive length advances `now` (60_exceptions.md R240). -/
theorem runSteps_timer {δ : Rat} {es : List Event} (n : Nat) (hδ : 0 < δ) (h : s.schedule = .timer δ :: es) :
    runSteps (n + 1) s = runSteps n { s with now := s.now + δ, schedule := es } :=
  runSteps_succ n ((step_of_schedule h).trans (congrArg _ (if_pos hδ)))

/-- The word of INIT is its encoding (30_encoding.md R102). -/
theorem decodeWord_init : decodeWord 0x00000004 = .ok .init := everyCommandDecodesFromItsEncoding .init

/-! ### The steps of INIT -/

/-- From `wait_until` on the step after a wait is taken (20_memory.md R88). -/
theorem afterWait_of_le (next : State → State) (hw : s.waitUntil ≤ s.now) : afterWait next s = next s := if_pos hw

/-- The sequencer's step of an undisturbed INIT is the step of R140. -/
theorem sequencerStep_init (hu : s.Undisturbed) (hs : s.seqState = .init) : sequencerStep s = initStep s := by
  rw [sequencerStep_due (stepDue_of_undisturbed hu)]
  simp only [commandStep, hs]

theorem runSteps_initStep {es : List Event} (n : Nat) (hsched : s.schedule = .sequencer :: es) (hu : s.Undisturbed)
    (hs : s.seqState = .init) : runSteps (n + 1) s = runSteps n (initStep { s with schedule := es }) :=
  runSteps_succ n ((step_of_schedule hsched).trans
    (congrArg Host.Outcome.next (sequencerStep_init (s := { s with schedule := es }) hu hs)))

theorem initStep_settle1 (hq : s.seqStep = .settle1) (hw : s.waitUntil ≤ s.now) :
    initStep s = { s with seqStep := .wPctl } := by
  simp only [initStep, hq, afterWait_of_le _ hw]

theorem initStep_settle2 (hq : s.seqStep = .settle2) (hw : s.waitUntil ≤ s.now) : initStep s = finishInit s := by
  simp only [initStep, hq, afterWait_of_le _ hw]

theorem initStep_wPctl {ws : List WriteReply} (hq : s.seqStep = .wPctl) (hack : s.writeReplies = .ack :: ws) :
    initStep s =
      { afterIssue s (.write s.config.devAddr 0x00 0x00 (.ok ())) ws s.readReplies s.draws with
        seqStep := .wSclr } := by
  simp only [initStep, hq, writeTransaction_ack _ _ _ _ _ hack]

theorem initStep_wSclr {ws : List WriteReply} (hq : s.seqStep = .wSclr) (hack : s.writeReplies = .ack :: ws) :
    initStep s =
      { afterIssue s (.write s.config.devAddr 0x05 0x0E (.ok ())) ws s.readReplies s.draws with
        seqStep := .wRst } := by
  simp only [initStep, hq, writeTransaction_ack _ _ _ _ _ hack]

theorem initStep_wRst {ws : List WriteReply} (hq : s.seqStep = .wRst) (hack : s.writeReplies = .ack :: ws) :
    initStep s =
      { afterIssue s (.write s.config.devAddr 0x01 0x3F (.ok ())) ws s.readReplies s.draws with
        seqStep := .settle2, waitUntil := s.now + s.cfg.settleTime } := by
  simp only [initStep, hq, writeTransaction_ack _ _ _ _ _ hack]
  rfl

/-! ### The parts of a run of INIT

A hypothesis about `s` holds of each later state of the run, which differs from `s` in other fields; `by exact` has it
read once the rewrite has fixed that state. -/

section
variable {δ : Rat} {es : List Event} {ls : List HostLine} {ws : List WriteReply} (n : Nat)

/-- The issue of INIT in IDLE and the wait before its writes. -/
theorem runSteps_initStart (hu : s.Undisturbed) (hs : s.seqState = .idle) (hδ : 0 < δ) (hwait : s.cfg.settleTime ≤ δ)
    (hsched : s.schedule = .host :: .timer δ :: .sequencer :: es) (hprog : s.program = .write 2 0x00000004 :: ls) :
    runSteps (n + 3) s =
      runSteps n
        { s with
          latch     := ⟨0x4, 0, 0⟩
          seqState  := .init
          seqStep   := .wPctl
          initDone  := false
          now       := s.now + δ
          waitUntil := s.now + s.cfg.settleTime
          schedule  := es
          program   := ls } := by
  have hissue := (step_of_writes_cmd hu.1 ⟨_, _, hsched, hprog, rfl⟩).trans (issueCommand_ok decodeWord_init)
  rw [runSteps_succ _ (hissue.trans (initStarts _ hs)), runSteps_timer _ hδ rfl,
    runSteps_initStep _ rfl (by exact hu) rfl, initStep_settle1 rfl (by simpa using hwait)]

/-- The three writes of INIT, with no wait between them (41_init.md R141). -/
theorem runSteps_initWrites (hu : s.Undisturbed) (hs : s.seqState = .init) (hq : s.seqStep = .wPctl)
    (hsched : s.schedule = .sequencer :: .sequencer :: .sequencer :: es)
    (hack : s.writeReplies = .ack :: .ack :: .ack :: ws) :
    runSteps (n + 3) s =
      runSteps n
        { s with
          seqStep      := .settle2
          waitUntil    := s.now + s.cfg.settleTime
          onBus        := false
          trace        := s.trace ++
            [.write s.config.devAddr 0x00 0x00 (.ok ()), .write s.config.devAddr 0x05 0x0E (.ok ()),
              .write s.config.devAddr 0x01 0x3F (.ok ())]
          schedule     := es
          writeReplies := ws } := by
  rw [runSteps_initStep _ hsched hu hs, initStep_wPctl (by exact hq) (by exact hack),
    runSteps_initStep _ rfl (by exact hu) (by exact hs), initStep_wSclr rfl rfl,
    runSteps_initStep _ rfl (by exact hu) (by exact hs), initStep_wRst rfl rfl]
  simp [afterIssue]

/-- The wait after the writes and the end of INIT. -/
theorem runSteps_initEnd (hu : s.Undisturbed) (hs : s.seqState = .init) (hq : s.seqStep = .settle2) (hδ : 0 < δ)
    (hwait : s.waitUntil ≤ s.now + δ) (hsched : s.schedule = .timer δ :: .sequencer :: es) :
    runSteps (n + 2) s = runSteps n (finishInit { s with now := s.now + δ, schedule := es }) := by
  rw [runSteps_timer _ hδ hsched, runSteps_initStep _ rfl (by exact hu) (by exact hs),
    initStep_settle2 (by exact hq) (by exact hwait)]

end

/-! ### The moves that write INIT_DONE -/

theorem issueMove_initDone {i : Instr} (m : IssueMove s i t) :
    t.initDone = s.initDone ∨ t.initDone = false ∧ i = .init ∧ t.seqState = .init := by
  cases m with
  | initStarted => exact .inr ⟨rfl, rfl, rfl⟩
  | _ => exact .inl rfl

/-- Of the host's accesses only the CMD write of INIT writes INIT_DONE, and clears it (41_init.md R143). -/
theorem hostMove_initDone {l : HostLine} (m : HostMove s l t) :
    t.initDone = s.initDone ∨ t.initDone = false ∧ l = .write 2 0x00000004 ∧ t.seqState = .init := by
  cases m with
  | command w i _ _ hw m =>
      rcases issueMove_initDone m with e | ⟨e, rfl, hs⟩
      · exact .inl e
      · obtain rfl : 0x00000004 = w := encode_of_decodeWord hw
        exact .inr ⟨e, rfl, hs⟩
  | _ => exact .inl rfl

/-- Of the command moves only SETTLE2 writes INIT_DONE: it is INIT's last step (41_init.md R140). -/
theorem commandMove_initDone_cases (m : CommandMove s t) :
    t.initDone = s.initDone ∨ s.seqState = .init ∧ s.seqStep = .settle2 ∧ t = finishInit s := by
  cases m with
  | initDone hs hq _ => exact .inr ⟨hs, hq, rfl⟩
  | wrote => exact .inl (endTransfer_initDone _)
  | readWord => exact .inl (endTransfer_initDone _)
  | _ => exact .inl rfl

theorem sequencerStep_initDone_cases (s : State) :
    (sequencerStep s).initDone = s.initDone ∨
      s.seqState = .init ∧ s.seqStep = .settle2 ∧ sequencerStep s = finishInit s := by
  rcases sequencerStep_move s with e | ⟨-, -, -, e⟩ | ⟨-, -, -, m⟩
  · exact .inl (by rw [e])
  · exact .inl (by rw [e, cancelStep_initDone])
  · exact commandMove_initDone_cases m

/-! ### The step of a known agent -/

theorem step_of_nextEvent {e : Event} (h : s.nextEvent = e) : step s = runEvent e (takeEvent s).2 := h ▸ rfl

/-- Where the host moves next, the step is its next line, run in a state that differs in the lists and the draws. -/
theorem step_of_nextLine (h : s.nextEvent = .host) :
    ∃ es ls n, step s = runHostLine s.nextLine { s with schedule := es, program := ls, draws := n } := by
  rw [step_of_nextEvent h]
  unfold State.nextLine
  simp only [runEvent, hostStep, takeEvent_snd]
  cases s.program <;> exact ⟨_, _, _, rfl⟩

/-- The issue of INIT in IDLE clears INIT_DONE (41_init.md R143). -/
theorem initDone_of_initIssued (hev : s.nextEvent = .host) (hl : s.nextLine = .write 2 0x00000004)
    (hr : s.rstN = true) (hs : s.seqState = .idle) (hstep : step s = .next t) : t.initDone = false := by
  obtain ⟨es, ls, n, e⟩ := step_of_nextLine hev
  rw [e, hl, runHostLine, hostWrite_cmd (by exact hr), issueCommand_ok decodeWord_init,
    initStarts _ (by exact hs)] at hstep
  exact Host.Outcome.next.inj hstep ▸ rfl

theorem initDone_of_reset (h : s.resetsNext) (hstep : step s = .next t) : t.initDone = false := by
  rw [step_of_nextEvent h] at hstep
  exact Host.Outcome.next.inj hstep ▸ rfl

/-- A flag that a move keeps is neither set nor cleared by it. -/
theorem flag_unmarked {a b : Bool} {p q : Prop} (e : b = a) :
    (a = false → b = true → p) ∧ (a = true → b = false → q) := by
  subst e
  exact ⟨fun h₁ h₂ => by simp [h₁] at h₂, fun h₁ h₂ => by simp [h₁] at h₂⟩

/-- Setting and clearing of INIT_DONE, by the agent that moves (41_init.md R143). -/
theorem initDone_changes (hstep : step s = .next t) :
    (s.initDone = false → t.initDone = true →
      s.nextEvent = .sequencer ∧ s.seqState = .init ∧ s.seqStep = .settle2 ∧ t.seqState = .idle ∧ t.done = true) ∧
    (s.initDone = true → t.initDone = false →
      s.resetsNext ∨ s.nextEvent = .host ∧ s.nextLine = .write 2 0x00000004 ∧ t.seqState = .init) := by
  obtain ⟨es, n, ⟨hev, ls, m, hm⟩ | ⟨hev, rfl⟩ | ⟨hr, rfl⟩ | ⟨_, _, _, _, _, rfl⟩⟩ := step_agents hstep
  case inl =>
    rcases hostMove_initDone hm with e | ⟨e, hl, hs⟩
    · exact flag_unmarked e
    · exact ⟨fun _ h => by simp [e] at h, fun _ _ => .inr ⟨hev, hl, hs⟩⟩
  case inr.inl =>
    rcases sequencerStep_initDone_cases (afterEvent s es n) with e | ⟨hs, hq, e⟩
    · exact flag_unmarked e
    · rw [e]
      exact ⟨fun _ _ => ⟨hev, hs, hq, rfl, rfl⟩, fun _ h => absurd h.symm Bool.false_ne_true⟩
  case inr.inr.inl => exact ⟨fun _ h => absurd h Bool.false_ne_true, fun _ _ => .inl hr⟩
  case inr.inr.inr => exact flag_unmarked rfl

end

/-- Settles O21: the start with its wait, the three writes, and the end with its wait. -/
theorem initRunsItsSequence : Obligations.InitRunsItsSequence := by
  unfold Obligations.InitRunsItsSequence
  intro s δ₁ δ₂ es ls ws hs hu hδ₁ hδ₂ hwait₁ hwait₂ hsched hprog hack
  rw [runSteps_initStart 5 hu hs hδ₁ hwait₁ hsched hprog,
    runSteps_initWrites 2 (by exact hu) rfl rfl rfl (by exact hack),
    runSteps_initEnd 0 (by exact hu) rfl rfl hδ₂ (by simpa using hwait₂) rfl]
  simp only [runSteps, finishInit, hs]

/-- Settles O58: the moves that write INIT_DONE, and the two that always clear it. -/
theorem initDoneFollowsInit : Obligations.InitDoneFollowsInit := by
  unfold Obligations.InitDoneFollowsInit
  intro s t hstep
  obtain ⟨hset, hclear⟩ := initDone_changes hstep
  exact ⟨hset, hclear, fun hev hl hr hs => initDone_of_initIssued hev hl hr hs hstep,
    fun h => initDone_of_reset h hstep⟩

end Sys2Proof.Machine
end

section
/-! PROOFS. The decoder and its float output (42_decoder.md R150-R157). -/

namespace Sys2Proof.Machine

/-! ### The decoder by ranges -/

theorem decodeRaw_of_le {v : Half} (h : v.toNat ≤ 0x7FF) : decodeRaw v = v.toNat := by
  rw [decodeRaw_eq, if_pos (by omega)]

theorem decodeRaw_of_ge {v : Half} (h : 0x800 ≤ v.toNat) : decodeRaw v = v.toNat - 4096 := by
  rw [decodeRaw_eq, if_neg (by omega)]

/-- Settles O43: the sign test is the bound 0x800, and each branch of the decoder keeps its side of it. -/
theorem decodeByRanges : Obligations.DecodeByRanges := by
  unfold Obligations.DecodeByRanges
  intro v
  have hv := v.isLt
  refine ⟨(signTest_iff v).trans (by omega), fun h => ?low, fun hlo hhi => ?negative, fun h => ?above⟩
  case low => have := decodeRaw_of_le h; omega
  case negative => have := decodeRaw_of_ge hlo; omega
  case above => have := decodeRaw_of_ge (v := v) (by omega); omega

/-- Below 0x1000 no bit is cut off, and bit 11 is the sign (R152). -/
theorem sext12_extract {v : Half} (h : v.toNat ≤ 0xFFF) :
    sext12 (v.extractLsb' 0 12) = if v.toNat < 0x800 then (v.toNat : Int) else v.toNat - 4096 := by
  have hlow : (v.extractLsb' 0 12).toNat = v.toNat := by
    rw [BitVec.extractLsb'_toNat, Nat.shiftRight_zero, Nat.mod_eq_of_lt (by omega)]
  rw [sext12, BitVec.toInt_eq_toNat_cond, hlow]
  split <;> split <;> omega

/-- Settles O44: the decoder and the sign extension are the same two cases; the boundary values are evaluated. -/
theorem decodeIsTwelveBitTwosComplement : Obligations.DecodeIsTwelveBitTwosComplement := by
  unfold Obligations.DecodeIsTwelveBitTwosComplement
  refine ⟨fun v h => ?low, fun v h => decodeRaw_of_ge (by omega), by decide⟩
  case low => rw [decodeRaw_eq, sext12_extract h]

/-! ### The fields of a binary32 pattern -/

/-- The pattern with sign `s`, biased exponent `x` and fraction `f`, as R156 puts it together. -/
def floatPattern (s x f : Nat) : Word := BitVec.ofNat 32 ((s <<< 31) ||| (x <<< 23) ||| f)

section
variable {s x f : Nat} (hs : s < 2) (hx : x < 2 ^ 8) (hf : f < 2 ^ 23)
include hs hx hf

theorem floatPattern_toNat : (floatPattern s x f).toNat = s * 2 ^ 31 + x * 2 ^ 23 + f := by
  have hlow : x <<< 23 ||| f = x * 2 ^ 23 + f := by
    rw [← Nat.shiftLeft_add_eq_or_of_lt hf, Nat.shiftLeft_eq]
  rw [floatPattern, BitVec.toNat_ofNat, Nat.or_assoc, hlow, ← Nat.shiftLeft_add_eq_or_of_lt (by omega),
    Nat.shiftLeft_eq]
  omega

theorem floatPattern_sign : (floatPattern s x f).getLsbD 31 = decide (s = 1) := by
  have hmsb : (floatPattern s x f).getLsbD 31 = (floatPattern s x f).msb := rfl
  rw [hmsb, BitVec.msb_eq_decide, floatPattern_toNat hs hx hf, decide_eq_decide]
  omega

theorem floatPattern_exponent : ((floatPattern s x f).extractLsb' 23 8).toNat = x := by
  rw [BitVec.extractLsb'_toNat, floatPattern_toNat hs hx hf, Nat.shiftRight_eq_div_pow]
  omega

theorem floatPattern_fraction : ((floatPattern s x f).extractLsb' 0 23).toNat = f := by
  rw [BitVec.extractLsb'_toNat, floatPattern_toNat hs hx hf, Nat.shiftRight_zero]
  omega

theorem floatValue_floatPattern :
    floatValue (floatPattern s x f) =
      (if s = 1 then -1 else 1) * (2 : Rat) ^ ((x : Int) - 127) * (1 + (f : Rat) / 2 ^ 23) := by
  simp only [floatValue, floatPattern_sign hs hx hf, floatPattern_exponent hs hx hf,
    floatPattern_fraction hs hx hf, decide_eq_true_eq]

end

/-! ### The float output -/

/-- Below its leading bit `m` has less than `2^e`, so its fraction fits 23 bits. -/
theorem fraction_lt {m : Nat} (h : m.log2 ≤ 23) : (m - 2 ^ m.log2) * 2 ^ (23 - m.log2) < 2 ^ 23 := by
  have hm : m - 2 ^ m.log2 < 2 ^ m.log2 := by
    have := Nat.lt_log2_self (n := m)
    rw [Nat.pow_succ] at this
    have := Nat.two_pow_pos m.log2
    omega
  calc (m - 2 ^ m.log2) * 2 ^ (23 - m.log2)
      < 2 ^ m.log2 * 2 ^ (23 - m.log2) := Nat.mul_lt_mul_of_pos_right hm (Nat.two_pow_pos _)
    _ = 2 ^ 23 := by rw [← Nat.pow_add, Nat.add_sub_cancel' h]

/-- The magnitude of R156's pattern: `2^(e−2)` times 1 plus the fraction is `m/4`. -/
theorem scaled_fraction {m e : Nat} (hm : 2 ^ e ≤ m) (he : e ≤ 23) :
    (2 : Rat) ^ (((e + 125 : Nat) : Int) - 127) * (1 + (((m - 2 ^ e) * 2 ^ (23 - e) : Nat) : Rat) / 2 ^ 23) = m / 4 := by
  have hexp : (2 : Rat) ^ (((e + 125 : Nat) : Int) - 127) = 2 ^ e / 4 := by
    rw [show ((e + 125 : Nat) : Int) - 127 = (e : Int) - 2 by omega, zpow_sub₀ two_ne_zero, zpow_natCast]
    norm_num
  have hsplit : (2 : Rat) ^ 23 = 2 ^ e * 2 ^ (23 - e) := by rw [← pow_add, Nat.add_sub_cancel' he]
  rw [hexp, hsplit]
  push_cast [hm]
  field_simp
  ring

section
variable {q : Int} (hq : InDecodeRange q) (h0 : q ≠ 0)

include hq h0 in
/-- The leading bit of a value the decoder can give is one of bits 0 to 15 (R156). -/
theorem log2_natAbs_lt : q.natAbs.log2 < 16 := by
  obtain ⟨hlo, hhi⟩ := hq
  exact (Nat.log2_lt (by omega)).mpr (by omega)

include h0 in
theorem f32_eq_floatPattern :
    f32 q = floatPattern (if q < 0 then 1 else 0) (q.natAbs.log2 + 125)
      ((q.natAbs - 2 ^ q.natAbs.log2) * 2 ^ (23 - q.natAbs.log2)) := by
  rw [f32, if_neg h0, ← Nat.shiftLeft_eq]
  rfl

include hq h0

theorem f32_exponent : ((f32 q).extractLsb' 23 8).toNat = q.natAbs.log2 + 125 := by
  have he := log2_natAbs_lt hq h0
  rw [f32_eq_floatPattern h0]
  exact floatPattern_exponent (by split <;> omega) (by omega) (fraction_lt (by omega))

theorem floatValue_f32 : floatValue (f32 q) = (q : Rat) / 4 := by
  have he := log2_natAbs_lt hq h0
  have hm : 2 ^ q.natAbs.log2 ≤ q.natAbs := Nat.log2_self_le (by omega)
  rw [f32_eq_floatPattern h0,
    floatValue_floatPattern (by split <;> omega) (by omega) (fraction_lt (by omega)), mul_assoc,
    scaled_fraction hm (by omega), Nat.cast_natAbs]
  rcases lt_or_gt_of_ne h0 with hneg | hpos
  · rw [if_pos hneg, if_pos rfl, abs_of_neg hneg, Int.cast_neg]
    ring
  · rw [if_neg hpos.le.not_gt, if_neg zero_ne_one, abs_of_pos hpos, one_mul]

/-- A normal pattern is not that of +0.0, whose exponent field is 0. -/
theorem f32_ne_zero : f32 q ≠ 0 := by
  intro h
  have hexp := f32_exponent hq h0
  rw [h] at hexp
  simp at hexp

end

/-- `q` can be recovered from its pattern (R157): a pattern has one value. -/
theorem f32_injective_in_range {q r : Int} (hq : InDecodeRange q) (hr : InDecodeRange r) (h : f32 q = f32 r) : q = r := by
  by_cases hq0 : q = 0
  · by_contra hne
    subst hq0
    exact f32_ne_zero hr (Ne.symm hne) h.symm
  · by_cases hr0 : r = 0
    · subst hr0
      exact absurd h (f32_ne_zero hq hq0)
    · have hvalue : (q : Rat) / 4 = r / 4 := by rw [← floatValue_f32 hq hq0, ← floatValue_f32 hr hr0, h]
      exact_mod_cast (div_left_inj' (by norm_num)).mp hvalue

/-- Settles O45: the value and the exponent from the fields of the pattern, and injectivity from the value; the examples
are evaluated. -/
theorem floatPatternsAreExact : Obligations.FloatPatternsAreExact := by
  unfold Obligations.FloatPatternsAreExact
  refine ⟨f32_zero, fun q hq h0 => ⟨floatValue_f32 hq h0, ?exponent⟩, fun q r => f32_injective_in_range, by decide⟩
  case exponent =>
    have he := log2_natAbs_lt hq h0
    rw [f32_exponent hq h0]
    omega

end Sys2Proof.Machine
end

section
/-! PROOFS. FRAME and RUN: the completion step, the wait between two frames, and FRAME from its issue to its completion
(43_acquisition.md R170-R175). -/

namespace Sys2Proof.Machine

section
variable {s : State}

/-! ### The RUN_WAIT step -/

theorem sequencerStep_runWait (hs : s.seqState = .runWait) (hu : s.Undisturbed) :
    sequencerStep s = afterWait startRunFrame s := by
  rw [sequencerStep_due (stepDue_of_undisturbed hu)]
  simp only [commandStep, hs, runWaitStep]

/-! ### The frame-completion step -/

theorem sequencerStep_stats (hs : s.seqState = .frame ∨ s.seqState = .runFrame) (hq : s.seqStep = .stats)
    (hu : s.Undisturbed) : sequencerStep s = completeFrame s := by
  have hframe : commandStep s = frameStep s := by rcases hs with hs | hs <;> simp only [commandStep, hs]
  rw [sequencerStep_due (stepDue_of_undisturbed hu), hframe]
  simp only [frameStep, hq]

/-- The bands are computed for the words the buffer holds, which stay (43_acquisition.md R172). -/
theorem completeFrame_pixel (s : State) (i : Fin 64) :
    (completeFrame s).pixel i = ⟨(s.pixel i).raw, (bandOf s.stats (decodeRaw (s.pixel i).raw)).code⟩ := by
  simp [State.pixel]

/-- FRAME_CNT counts modulo 2^32 (43_acquisition.md R172). -/
theorem completeFrame_frameCnt_toNat (s : State) :
    (completeFrame s).frameCnt.toNat = (s.frameCnt.toNat + 1) % 2 ^ 32 := BitVec.toNat_add _ _

end

/-- Settles O25: the step is `startRunFrame` behind a wait. -/
theorem runWaitStartsTheNextFrame : Obligations.RunWaitStartsTheNextFrame := by
  unfold Obligations.RunWaitStartsTheNextFrame
  refine ⟨fun s hs hu => ?step, rfl⟩
  case step =>
    rw [sequencerStep_runWait hs hu]
    exact ⟨afterWait_of_le startRunFrame, afterWait_of_lt startRunFrame⟩

/-- Settles O23: the step is `completeFrame`. -/
theorem statsStepCompletesTheFrame : Obligations.StatsStepCompletesTheFrame := by
  unfold Obligations.StatsStepCompletesTheFrame
  intro s hs hq hu
  rw [sequencerStep_stats hs hq hu]
  refine ⟨rfl, rfl, rfl, rfl, rfl, rfl, completeFrame_pixel s, completeFrame_frameCnt_toNat s, rfl, rfl, rfl, rfl,
    fun hs => ?frame, fun hs => ?runFrame⟩
  case frame => simp [hs]
  case runFrame => simp [hs]

/-! ### The reads of a frame -/

/-- The buffer after reads from entry `k` on have brought the bytes of a list (43_acquisition.md R171). -/
def storeReads (swap : Bool) : Nat → List (Byte × Byte) → Vector Pixel 64 → Vector Pixel 64
  | _, [], pix => pix
  | k, b :: bs, pix => storeReads swap (k + 1) bs (setRaw k (norm swap b.1 b.2) pix)

/-- The records of reads from entry `k` on that bring the bytes of a list (43_acquisition.md R171). -/
def readRecords (addr : BitVec 7) (k : Nat) (l : List (Byte × Byte)) : List BusRecord :=
  (l.zipIdx k).map fun e => .read addr (pixelReg e.2) (.ok e.1)

/-- Reads leave the entries before their first as they are. -/
theorem storeReads_of_lt (swap : Bool) (l : List (Byte × Byte)) {k i : Nat} (pix : Vector Pixel 64) (hi : i < 64)
    (hk : i < k) : (storeReads swap k l pix)[i] = pix[i] := by
  induction l generalizing k pix with
  | nil => rfl
  | cons b bs ih => rw [storeReads, ih _ (by omega), setRaw_getElem, if_neg (by omega)]

/-- Read number `j` writes entry `k + j`, and no later one does. -/
theorem storeReads_raw (swap : Bool) (l : List (Byte × Byte)) {k i j : Nat} (pix : Vector Pixel 64) (hi : i < 64)
    (hj : j < l.length) (hij : i = k + j) : (storeReads swap k l pix)[i].raw = norm swap l[j].1 l[j].2 := by
  induction l generalizing k j pix with
  | nil => exact absurd hj (Nat.not_lt_zero j)
  | cons b bs ih =>
      cases j with
      | zero =>
          obtain rfl : i = k := hij
          rw [storeReads, storeReads_of_lt _ _ _ _ (Nat.lt_succ_self i), setRaw_getElem, if_pos rfl,
            List.getElem_cons_zero]
      | succ j => exact ih _ (Nat.lt_of_succ_lt_succ hj) (by omega)

theorem storeReads_ofFn_raw (swap : Bool) {n : Nat} (b : Fin n → Byte × Byte) (pix : Vector Pixel 64) (i : Fin n)
    (hi : i.val < 64) : (storeReads swap 0 (List.ofFn b) pix)[i.val].raw = norm swap (b i).1 (b i).2 := by
  rw [storeReads_raw swap (List.ofFn b) pix hi (by simp) (Nat.zero_add i.val).symm, List.getElem_ofFn]

theorem readRecords_ofFn (addr : BitVec 7) {n : Nat} (b : Fin n → Byte × Byte) :
    readRecords addr 0 (List.ofFn b) = List.ofFn fun i => .read addr (pixelReg i.val) (.ok (b i)) := by
  unfold readRecords
  apply List.ext_getElem <;> simp

/-! ### The parts of a run of FRAME

As in a run of INIT, `by exact` reads a hypothesis about `s` at a later state, which differs in other fields. -/

section
variable {s : State} {es : List Event} {ls : List HostLine} {rs : List ReadReply} (n : Nat)

/-- The word of FRAME is its encoding (30_encoding.md R102). -/
theorem decodeWord_frame : decodeWord 0x00000005 = .ok .frame := everyCommandDecodesFromItsEncoding .frame

/-- A scheduled step of the sequencer. -/
theorem runSteps_sequencer (h : s.schedule = .sequencer :: es) :
    runSteps (n + 1) s = runSteps n (sequencerStep { s with schedule := es }) :=
  runSteps_succ n (step_of_schedule h)

/-- The issue of FRAME in IDLE with INIT_DONE = 1. -/
theorem runSteps_frameStart (hr : s.rstN = true) (hs : s.seqState = .idle) (hd : s.initDone = true)
    (hsched : s.schedule = .host :: es) (hprog : s.program = .write 2 0x00000005 :: ls) :
    runSteps (n + 1) s =
      runSteps n
        { s with
          latch      := ⟨0x5, 0, 0⟩
          seqState   := .frame
          seqStep    := .read
          k          := 0
          frameValid := false
          schedule   := es
          program    := ls } := by
  have hissue := (step_of_writes_cmd hr ⟨_, _, hsched, hprog, rfl⟩).trans (issueCommand_ok decodeWord_frame)
  exact runSteps_succ n (hissue.trans (acquisitionCommandsStart _ (by exact hs) (by exact hd)).1)

/-- The reads of FRAME from entry `k` on, by the list of the bytes they bring (43_acquisition.md R170, R171). -/
theorem runSteps_frameReads (l : List (Byte × Byte)) (hu : s.Undisturbed) (hs : s.seqState = .frame)
    (hq : s.seqStep = if s.k = 64 then .stats else .read) (hk : s.k + l.length = 64)
    (hsched : s.schedule = List.replicate l.length .sequencer ++ es)
    (hreply : s.readReplies = l.map (fun b => .ack b.1 b.2) ++ rs) :
    runSteps (n + l.length) s =
      runSteps n
        { s with
          seqStep     := .stats
          k           := 64
          pix         := storeReads s.config.swap s.k l s.pix
          onBus       := s.onBus && l.isEmpty
          trace       := s.trace ++ readRecords s.config.devAddr s.k l
          schedule    := es
          readReplies := rs } := by
  induction l generalizing s with
  | nil =>
      have hk64 : s.k = 64 := hk
      have hq' : s.seqStep = .stats := hq.trans (if_pos hk64)
      simp [readRecords, storeReads, ← hk64, ← hq', ← show s.schedule = es from hsched,
        ← show s.readReplies = rs from hreply]
  | cons b bs ih =>
      have hlt : s.k < 64 := by rw [List.length_cons] at hk; omega
      have hq' : s.seqStep = .read := hq.trans (if_neg (by omega))
      rw [List.length_cons, ← Nat.add_assoc, runSteps_sequencer _ hsched,
        sequencerStep_read (.inl (by exact hs)) (by exact hq') (by exact hlt) (stepDue_of_undisturbed (by exact hu))
          (by exact hreply),
        ih (by exact hu) (by exact hs) rfl (by simpa [afterIssue, Nat.add_assoc, Nat.add_comm 1] using hk) rfl rfl]
      simp [afterIssue, readRecords, storeReads, storePixel]

/-- FRAME after its issue: 64 reads and the completion step. -/
theorem runSteps_frame (l : List (Byte × Byte)) (hl : l.length = 64) (hu : s.Undisturbed) (hs : s.seqState = .frame)
    (hq : s.seqStep = .read) (hk : s.k = 0) (hsched : s.schedule = List.replicate 65 .sequencer ++ es)
    (hreply : s.readReplies = l.map (fun b => .ack b.1 b.2) ++ rs) :
    runSteps 65 s =
      .next (completeFrame
        { s with
          seqStep     := .stats
          k           := 64
          pix         := storeReads s.config.swap 0 l s.pix
          onBus       := false
          trace       := s.trace ++ readRecords s.config.devAddr 0 l
          schedule    := es
          readReplies := rs }) := by
  have hne : l.isEmpty = false := by cases l <;> simp_all
  have hreads := runSteps_frameReads (s := s) (es := .sequencer :: es) (rs := rs) 1 l hu hs (by simp [hq, hk])
    (by rw [hk, hl]) (by rw [hsched, hl, List.replicate_succ', List.append_assoc]; rfl) hreply
  rw [hl, hk, hne, Bool.and_false] at hreads
  rw [hreads, runSteps_sequencer 0 rfl, sequencerStep_stats (.inl (by exact hs)) rfl (by exact hu)]
  rfl

end

/-- Settles O24: the issue, the 64 reads and the completion step. -/
theorem frameRunsToCompletion : Obligations.FrameRunsToCompletion := by
  unfold Obligations.FrameRunsToCompletion
  intro s b es ls rs hs hu hd hsched hprog hreply
  have hmap : (List.ofFn fun i => ReadReply.ack (b i).1 (b i).2) = (List.ofFn b).map fun p => .ack p.1 p.2 := by
    rw [List.map_ofFn]
    rfl
  rw [runSteps_frameStart 65 hu.1 hs hd hsched hprog,
    runSteps_frame (List.ofFn b) List.length_ofFn (by exact hu) rfl rfl rfl rfl (by exact hreply.trans (by rw [hmap]))]
  refine ⟨_, rfl, rfl, rfl, rfl, frameComplete_completeFrame _, rfl, rfl, rfl, hd, rfl, ?trace, fun i => ?pixel, rfl,
    rfl, rfl⟩
  case trace => exact congrArg (s.trace ++ ·) (readRecords_ofFn _ b)
  case pixel => exact (completeFrame_pixel_raw _ i).trans (storeReads_ofFn_raw s.config.swap b s.pix i i.isLt)

end Sys2Proof.Machine
end

section
/-! PROOFS. STOP, the cancel input, and the cancel step with a transaction in progress before it (43_acquisition.md
R177-R183). -/

namespace Sys2Proof.Machine

section
variable {s : State}

/-! ### STOP -/

theorem exec_stop_busy (hb : s.busy = true) : exec .stop s = .next { s with cancelPend := true } :=
  congrArg _ ((if_neg (seqState_ne_halted_of_busy hb)).trans (if_pos hb))

theorem exec_stop_idle (hs : s.seqState = .idle) : exec .stop s = .next s := by
  simp [exec, execStop, State.busy, SeqState.busy, hs]

/-- Of the words with OP = 7 only STOP's passes the row's test (30_encoding.md R102, R104). -/
theorem decodeWord_eq_reserved_of_op_seven {w : Word} (hop : w.toNat % 16 = 7) (hw : w ≠ 7) :
    decodeWord w = .error .reserved := by
  have htest : w &&& cmdMask 7 ≠ cmdMatch 7 := by
    have hmask : w &&& cmdMask 7 = w := BitVec.and_allOnes
    rwa [hmask]
  exact decodeWord_eq_reserved (by omega) (by rwa [hop])

/-! ### The cancel step and the cancel input -/

/-- A pending cancel comes before the command step, unless a transaction is in progress (60_exceptions.md R229). -/
theorem sequencerStep_cancel (hr : s.rstN = true) (hh : s.hung = false) (hb : s.busy = true)
    (hc : s.cancelPend = true) (ht : s.inTransaction = false) : sequencerStep s = cancelStep s := by
  simp [sequencerStep, hr, hh, hb, hc, ht]

theorem inTransaction_of_onBus_false (ho : s.onBus = false) : s.inTransaction = false := by
  simp [State.inTransaction, ho]

/-- The wait of RUN is no transaction (43_acquisition.md R175). -/
theorem inTransaction_of_runWait (hs : s.seqState = .runWait) : s.inTransaction = false := by
  simp [State.inTransaction, State.atTransaction, hs]

/-- STOP in RUN_WAIT: the cancel step is next (43_acquisition.md R177, R178). -/
theorem sequencerStep_stop_runWait (hs : s.seqState = .runWait) (hr : s.rstN = true) (hh : s.hung = false) :
    sequencerStep { s with cancelPend := true } = cancelStep { s with cancelPend := true } :=
  have hb : s.busy = true := by simp [State.busy, SeqState.busy, hs]
  sequencerStep_cancel hr hh hb rfl (inTransaction_of_runWait hs)

/-- A rising edge of `cancel_i` while busy requests a cancel (43_acquisition.md R178). -/
theorem sampleCancel_released (level : Bool) (hr : s.rstN = true) :
    sampleCancel level s =
      { s with
        cancelPrev := level
        cancelPend := if level = true ∧ s.cancelPrev = false ∧ s.busy = true then true else s.cancelPend } := by
  have hedge : (s.cancelPend || (level && !s.cancelPrev && s.busy)) =
      if level = true ∧ s.cancelPrev = false ∧ s.busy = true then true else s.cancelPend := by
    cases level <;> cases s.cancelPrev <;> cases s.busy <;> simp
  rw [sampleCancel, if_pos hr, hedge]

/-! ### A transaction goes onto the wires -/

/-- The position stands at a transaction exactly where one comes next. -/
theorem atTransaction_iff (s : State) :
    s.atTransaction = true ↔ (∃ reg data, s.NextWrite reg data) ∨ ∃ reg, s.NextRead reg := by
  constructor
  · intro h
    unfold State.atTransaction at h
    split at h
    next hs hq => exact .inl ⟨_, _, .inl ⟨hs, .inl ⟨hq, rfl, rfl⟩⟩⟩
    next hs hq => exact .inl ⟨_, _, .inl ⟨hs, .inr (.inl ⟨hq, rfl, rfl⟩)⟩⟩
    next hs hq => exact .inl ⟨_, _, .inl ⟨hs, .inr (.inr ⟨hq, rfl, rfl⟩)⟩⟩
    next hs hq =>
      simp only [Bool.or_eq_true, decide_eq_true_eq] at h
      rcases h with hop | hop
      · exact .inl ⟨_, _, .inr ⟨hs, hq, hop, rfl, rfl⟩⟩
      · exact .inr ⟨_, .inr ⟨hs, hq, hop, rfl⟩⟩
    next hs hq => exact .inr ⟨_, .inl ⟨.inl hs, hq, of_decide_eq_true h, rfl⟩⟩
    next hs hq => exact .inr ⟨_, .inl ⟨.inr hs, hq, of_decide_eq_true h, rfl⟩⟩
    next => exact absurd h Bool.false_ne_true
  · rintro (⟨reg, data, h⟩ | ⟨reg, h⟩)
    · exact atTransaction_of_nextWrite h
    · exact atTransaction_of_nextRead h

theorem busStart_eq (s : State) :
    busStart s =
      { s with
        onBus :=
          if s.rstN = true ∧ s.hung = false ∧ s.cancelPend = false ∧
              ((∃ reg data, s.NextWrite reg data) ∨ ∃ reg, s.NextRead reg)
          then true else s.onBus } := by
  simp only [← atTransaction_iff]
  unfold busStart
  split
  next h => rw [if_pos (by simpa [and_assoc] using h)]
  next h => rw [if_neg (by simpa [and_assoc] using h)]

/-! ### A cancel requested while a transaction is in progress -/

/-- A transaction in progress ends before the cancel that is pending (43_acquisition.md R180, R181). -/
theorem stepDue_of_onBus (hr : s.rstN = true) (hh : s.hung = false) (ho : s.onBus = true)
    (ha : s.atTransaction = true) : s.StepDue :=
  ⟨hr, hh, .inr (by simp [State.inTransaction, ho, ha])⟩

/-- With a cancel pending a transfer that ends leaves the block in PRIM (43_acquisition.md R181). -/
theorem endTransfer_cancelling (hc : s.cancelPend = true) : endTransfer s = s := if_pos hc

/-- The due write with a listed acknowledge and a cancel pending: it writes the next step of INIT, or nothing. -/
theorem sequencerStep_write_cancelling {reg data : Byte} {ws : List WriteReply} (hd : s.StepDue)
    (hc : s.cancelPend = true) (hn : s.NextWrite reg data) (hw : s.writeReplies = .ack :: ws) :
    sequencerStep s =
      { s with
        seqStep      :=
          match s.seqStep with
          | .wPctl => .wSclr
          | .wSclr => .wRst
          | .wRst  => .settle2
          | q      => q
        waitUntil    := if s.seqStep = .wRst then s.now + s.cfg.settleTime else s.waitUntil
        onBus        := false
        trace        := s.trace ++ [.write s.config.devAddr reg data (.ok ())]
        writeReplies := ws } := by
  rw [sequencerStep_due hd]
  rcases hn with ⟨hs, ⟨hq, rfl, rfl⟩ | ⟨hq, rfl, rfl⟩ | ⟨hq, rfl, rfl⟩⟩ | ⟨hs, hq, hop, rfl, rfl⟩
  · simp [commandStep, hs, initStep_wPctl hq hw, hq, afterIssue]
  · simp [commandStep, hs, initStep_wSclr hq hw, hq, afterIssue]
  · simp [commandStep, hs, initStep_wRst hq hw, hq, afterIssue]
  · simp only [commandStep, hs, primStep, hq, if_pos hop, wrbyteTransfer, writeTransaction_ack _ _ _ _ _ hw]
    rw [endTransfer_cancelling (by exact hc)]
    simp [afterIssue, hs, hq, CmdLatch.data]

/-- RDWORD's transfer with a listed answer of two bytes and a cancel pending: it writes RAW. -/
theorem sequencerStep_rdword_cancelling {b0 b1 : Byte} {rs : List ReadReply} (hd : s.StepDue)
    (hc : s.cancelPend = true) (hs : s.seqState = .prim) (hq : s.seqStep = .xfer) (hop : s.latch.op = 0x2)
    (hr : s.readReplies = .ack b0 b1 :: rs) :
    sequencerStep s =
      { afterIssue s (.read s.config.devAddr s.latch.reg (.ok (b0, b1))) s.writeReplies rs s.draws with
        raw := norm s.config.swap b0 b1 } := by
  have hop' : s.latch.op ≠ 0x1 := by rw [hop]; decide
  rw [sequencerStep_due hd]
  simp only [commandStep, hs, primStep, hq, if_neg hop', if_pos hop, rdwordTransfer, readTransaction_ack _ _ _ _ _ _ hr]
  rw [endTransfer_cancelling (by exact hc)]
  simp [afterIssue, hs, hq]

/-- A read that is due, with a listed answer of two bytes and a cancel pending, leaves the cancel step next. -/
theorem sequencerStep_cancel_after_read {reg b0 b1 : Byte} {rs : List ReadReply} (hd : s.StepDue)
    (hc : s.cancelPend = true) (hn : s.NextRead reg) (hr : s.readReplies = .ack b0 b1 :: rs) :
    sequencerStep (sequencerStep s) = cancelStep (sequencerStep s) := by
  have hb := busy_of_atTransaction (atTransaction_of_nextRead hn)
  have ⟨hrst, hh, _⟩ := hd
  rcases hn with ⟨hs, hq, hk, -⟩ | ⟨hs, hq, hop, -⟩
  · rw [sequencerStep_read hs hq hk hd hr]
    exact sequencerStep_cancel hrst hh hb hc (inTransaction_of_onBus_false rfl)
  · rw [sequencerStep_rdword_cancelling hd hc hs hq hop hr]
    exact sequencerStep_cancel hrst hh hb hc (inTransaction_of_onBus_false rfl)

end

/-- Settles O17: `execStop` case by case, and the row of STOP. -/
theorem stopRequestsACancel : Obligations.StopRequestsACancel := by
  unfold Obligations.StopRequestsACancel
  refine ⟨fun s => ⟨exec_stop_busy, exec_stop_idle, exec_stop_halted, fun hb hc => ?again, fun hs hr hh => ?runWait⟩,
    everyCommandDecodesFromItsEncoding .stop, fun s u w hr hw hop hne => ?reserved⟩
  case again => rw [exec_stop_busy hb, ← hc]
  case runWait =>
    refine ⟨_, exec_stop_busy (by simp [State.busy, SeqState.busy, hs]), ?_⟩
    rw [sequencerStep_stop_runWait hs hr hh]
    exact ⟨rfl, rfl, rfl, rfl, rfl⟩
  case reserved =>
    rw [step_of_writes_cmd hr hw, issueCommand_error (decodeWord_eq_reserved_of_op_seven hop hne)]
    rfl

/-- Settles O26: the priority of a pending cancel, the two events of the environment, and the transaction that ends
first. -/
theorem cancelIsTakenNext : Obligations.CancelIsTakenNext := by
  unfold Obligations.CancelIsTakenNext
  refine ⟨fun s hr => ⟨fun hb hc hh ht => sequencerStep_cancel hr hh hb hc ht, fun level es hsched => ?sample⟩,
    fun s es hsched => ?start, fun s hr hh ho hc => ⟨fun reg data ws hn hw => ?write, fun reg b0 b1 rs hn hrd => ?read⟩⟩
  case sample => exact (step_of_schedule hsched).trans (congrArg Host.Outcome.next (sampleCancel_released level hr))
  case start => exact (step_of_schedule hsched).trans (congrArg Host.Outcome.next (busStart_eq _))
  case write =>
    have ha := atTransaction_of_nextWrite hn
    have e := sequencerStep_write_cancelling (stepDue_of_onBus hr hh ho ha) hc hn hw
    have hb : s.busy = true := busy_of_atTransaction ha
    refine ⟨e, ?_⟩
    rw [e]
    exact sequencerStep_cancel hr hh hb hc (inTransaction_of_onBus_false rfl)
  case read =>
    have hd := stepDue_of_onBus hr hh ho (atTransaction_of_nextRead hn)
    refine ⟨fun hs => ?raw, sequencerStep_cancel_after_read hd hc hn hrd⟩
    case raw =>
      rcases hn with ⟨hs' | hs', -⟩ | ⟨-, hq, hop, rfl⟩
      · simp [hs] at hs'
      · simp [hs] at hs'
      · exact sequencerStep_rdword_cancelling hd hc hs hq hop hrd

/-! ### CANCELLED -/

section
variable {s t : State}

theorem issueMove_cancelled {i : Instr} (m : IssueMove s i t) : t.cancelled = s.cancelled := by
  cases m <;> rfl

/-- Of the host's accesses only a STATUS write writes CANCELLED, and can only clear it (10_state.md R34). -/
theorem hostMove_cancelled {l : HostLine} (m : HostMove s l t) :
    t.cancelled = s.cancelled ∨ ∃ w, l = .write 3 w ∧ t.cancelled = (s.cancelled && !w.getLsbD 7) := by
  cases m with
  | command _ _ _ _ _ m => exact .inl (issueMove_cancelled m)
  | status w _ => exact .inr ⟨w, rfl, rfl⟩
  | _ => exact .inl rfl

theorem commandMove_cancelled (m : CommandMove s t) : t.cancelled = s.cancelled := by
  cases m with
  | wrote => exact endTransfer_cancelled _
  | readWord => exact endTransfer_cancelled _
  | _ => rfl

/-- Of the sequencer's steps only the cancel step writes CANCELLED (43_acquisition.md R178, R179). -/
theorem sequencerStep_cancelled (s : State) :
    (sequencerStep s).cancelled = s.cancelled ∨
      s.busy = true ∧ s.cancelPend = true ∧ sequencerStep s = cancelStep s := by
  rcases sequencerStep_move s with e | ⟨hb, hc, -, e⟩ | ⟨-, -, -, m⟩
  · exact .inl (by rw [e])
  · exact .inr ⟨hb, hc, e⟩
  · exact .inl (commandMove_cancelled m)

end

/-- Settles O27: CANCELLED is kept by every move but the cancel step, the host's clear and reset. -/
theorem cancelledFollowsTheCancelStep : Obligations.CancelledFollowsTheCancelStep := by
  unfold Obligations.CancelledFollowsTheCancelStep
  intro s t hstep
  obtain ⟨es, n, ⟨hev, ls, m, hm⟩ | ⟨hev, rfl⟩ | ⟨hr, rfl⟩ | ⟨_, _, _, _, _, rfl⟩⟩ := step_agents hstep
  case inl =>
    rcases hostMove_cancelled hm with e | ⟨w, hl, e⟩
    · exact flag_unmarked e
    · change t.cancelled = (s.cancelled && !w.getLsbD 7) at e
      refine ⟨fun hs ht => ?_, fun hs ht => .inr ⟨hev, w, hl, ?_⟩⟩
      · simp [e, hs] at ht
      · simpa only [e, hs, Bool.true_and, Bool.not_eq_false'] using ht
  case inr.inl =>
    rcases sequencerStep_cancelled (afterEvent s es n) with e | ⟨hb, hc, e⟩
    · exact flag_unmarked e
    · rw [e]
      exact ⟨fun _ _ => ⟨hev, hb, hc, rfl⟩, fun _ h => absurd h.symm Bool.false_ne_true⟩
  case inr.inr.inl => exact ⟨fun _ h => absurd h Bool.false_ne_true, fun _ _ => .inl hr⟩
  case inr.inr.inr => exact flag_unmarked rfl

end Sys2Proof.Machine
end

section
/-! PROOFS. A transaction that fails halts the block, whatever command issued it (43_acquisition.md R181,
60_exceptions.md R222). -/

namespace Sys2Proof.Machine

/-- The failure a record shows: the code, the register, and 1 for a BusReadWord (20_memory.md R82, 10_state.md R35). -/
def BusRecord.failure : BusRecord → Option (ErrCode × Byte × Bool)
  | .write _ reg _ (.fail c) => some (c, reg, false)
  | .read _ reg (.fail c)    => some (c, reg, true)
  | _                        => none

section
variable {s t : State} {r r' : BusRecord} {c : ErrCode} {reg : Byte} {rw : Bool}

/-! ### The step that leaves a failed record -/

theorem record_unique {l : List BusRecord} (h : l ++ [r'] = l ++ [r]) : r' = r :=
  List.singleton_inj.mp (List.append_cancel_left h)

theorem no_record {l : List BusRecord} (h : l = l ++ [r]) : False :=
  List.cons_ne_nil r [] (List.self_eq_append_right.mp h)

/-- A command move that leaves a failed record is the fatal error with that record's data (60_exceptions.md R222). -/
theorem commandMove_of_failure (m : CommandMove s t) (hr : r.failure = some (c, reg, rw))
    (ht : t.trace = s.trace ++ [r]) : c ≠ .none ∧ ∃ ws rs n, t = raiseFatal c reg rw (afterIssue s r ws rs n) := by
  cases m with
  | writeFailed q d c' ws n _ hc =>
      obtain rfl := record_unique ht
      cases hr
      exact ⟨hc, ws, _, n, rfl⟩
  | readFailed q c' rs n _ hc =>
      obtain rfl := record_unique ht
      cases hr
      exact ⟨hc, _, rs, n, rfl⟩
  | wrote => obtain rfl := record_unique ((endTransfer_trace _).symm.trans ht); cases hr
  | readWord => obtain rfl := record_unique ((endTransfer_trace _).symm.trans ht); cases hr
  | initWrote | resetWrote | readPixel | writeHeld | readHeld => obtain rfl := record_unique ht; cases hr
  | stay | settled | initDone | completed | nextFrame => exact (no_record ht).elim

theorem sequencerStep_of_failure (hr : r.failure = some (c, reg, rw))
    (ht : (sequencerStep s).trace = s.trace ++ [r]) :
    c ≠ .none ∧ ∃ ws rs n, sequencerStep s = raiseFatal c reg rw (afterIssue s r ws rs n) := by
  rcases sequencerStep_move s with e | ⟨-, -, -, e⟩ | ⟨-, -, -, m⟩
  · exact (no_record ((congrArg State.trace e).symm.trans ht)).elim
  · exact (no_record ((congrArg State.trace e).symm.trans ht)).elim
  · exact commandMove_of_failure m hr ht

/-- ERRINFO as the host reads it after a fatal error (10_state.md R35). -/
theorem readReg_errInfo_raiseFatal (c : ErrCode) (reg : Byte) (rw : Bool) (s : State) :
    (readReg (raiseFatal c reg rw s) 0x04).toNat = 2 ^ 12 * s.latch.op.toNat + 2 ^ 8 * rw.toNat + reg.toNat := by
  have hword : (readReg (raiseFatal c reg rw s) 0x04).toNat = _ := errInfoWord_toNat ⟨reg, rw, s.latch.op⟩
  dsimp only at hword
  omega

/-! ### A due transaction whose listed answer is a failure -/

theorem sequencerStep_writeFailed {data : Byte} {q : WriteReply} {ws : List WriteReply} (hd : s.StepDue)
    (hn : s.NextWrite reg data) (hw : s.writeReplies = q :: ws) (hres : writeResult s.cfg.busTimeout q = .fail c) :
    sequencerStep s =
      raiseFatal c reg false
        (afterIssue s (.write s.config.devAddr reg data (.fail c)) ws s.readReplies s.draws) := by
  obtain ⟨onOk, e⟩ := commandStep_nextWrite hn
  simp only [sequencerStep_due hd, e, writeTransaction_listed _ _ _ _ _ _ hw, hres]

theorem sequencerStep_readFailed {q : ReadReply} {rs : List ReadReply} (hd : s.StepDue) (hn : s.NextRead reg)
    (hr : s.readReplies = q :: rs) (hres : readResult s.cfg.busTimeout q = .fail c) :
    sequencerStep s =
      raiseFatal c reg true (afterIssue s (.read s.config.devAddr reg (.fail c)) s.writeReplies rs s.draws) := by
  obtain ⟨onOk, e⟩ := commandStep_nextRead hn
  simp only [sequencerStep_due hd, e, readTransaction_listed _ _ _ _ _ hr, hres]

end

/-- Settles O28: each of the steps is `raiseFatal` after the transaction. -/
theorem failedTransactionHalts : Obligations.FailedTransactionHalts := by
  unfold Obligations.FailedTransactionHalts
  refine ⟨fun s a reg c rw h => ?record, fun s reg data q ws c hd hn hw hres => ?write,
    fun s reg q rs c hd hn hr hres => ?read⟩
  case record =>
    have hfailed : ∃ r : BusRecord, r.failure = some (c, reg, rw) ∧ (sequencerStep s).trace = s.trace ++ [r] := by
      rcases h with ⟨rfl, ht⟩ | ⟨rfl, d, ht⟩
      · exact ⟨_, rfl, ht⟩
      · exact ⟨_, rfl, ht⟩
    obtain ⟨r, hr, ht⟩ := hfailed
    obtain ⟨hc, ws, rs, n, e⟩ := sequencerStep_of_failure hr ht
    rw [e]
    exact ⟨hc, readReg_errInfo_raiseFatal c reg rw _, rfl⟩
  case write => exact sequencerStep_writeFailed hd hn hw hres
  case read => exact sequencerStep_readFailed hd hn hr hres

end Sys2Proof.Machine
end

section
/-! PROOFS. The statistics of a frame: extrema, rounded average, thresholds and bands (44_statistics.md R190-R202). -/

namespace Sys2Proof.Machine

/-! ### The extrema -/

/-- Settles O47: the extrema of the list of decoded values, each of which is a pixel's. -/
theorem extremaAreExact : Obligations.ExtremaAreExact := by
  unfold Obligations.ExtremaAreExact
  intro pix
  obtain ⟨hmin, hminLe⟩ := minOf_spec (decodedPixels_ne_nil pix)
  obtain ⟨hmax, hleMax⟩ := maxOf_spec (decodedPixels_ne_nil pix)
  refine ⟨(mem_decodedPixels_iff pix _).mp hmin, (mem_decodedPixels_iff pix _).mp hmax, fun i => ?bounds⟩
  case bounds =>
    have hi : decodeRaw pix[i].raw ∈ decodedPixels pix := (mem_decodedPixels_iff pix _).mpr ⟨i, rfl⟩
    exact ⟨hminLe _ hi, hleMax _ hi⟩

theorem isLeast_minOf {l : List Int} (hl : l ≠ []) : IsLeast {q | q ∈ l} (minOf l) := minOf_spec hl

theorem isGreatest_maxOf {l : List Int} (hl : l ≠ []) : IsGreatest {q | q ∈ l} (maxOf l) := maxOf_spec hl

/-- The extrema depend on the set of the list's members only. -/
theorem minOf_maxOf_perm {l l' : List Int} (h : l.Perm l') : minOf l = minOf l' ∧ maxOf l = maxOf l' := by
  by_cases hl : l = []
  · subst hl
    rw [List.nil_perm.mp h]
    exact ⟨rfl, rfl⟩
  · have hl' : l' ≠ [] := fun e => hl (List.perm_nil.mp (e ▸ h))
    have hset : {q | q ∈ l'} = {q | q ∈ l} := Set.ext fun _ => h.symm.mem_iff
    exact ⟨(isLeast_minOf hl).unique (hset ▸ isLeast_minOf hl'),
      (isGreatest_maxOf hl).unique (hset ▸ isGreatest_maxOf hl')⟩

/-- Settles O53: extrema and sum ignore the order, and the other results are computed from them. -/
theorem statisticsIgnoreOrder : Obligations.StatisticsIgnoreOrder := by
  unfold Obligations.StatisticsIgnoreOrder
  intro qs rs h
  obtain ⟨hmin, hmax⟩ := minOf_maxOf_perm h
  simp only [frameStats, hmin, hmax, h.sum_eq]

/-! ### The average -/

/-- R192 without the division: the average is within half a unit of `25 S / 64`, and the even one at a tie. -/
theorem averageC_eq_iff {S a : Int} :
    averageC S = a ↔
      64 * a - 32 ≤ 25 * S ∧ 25 * S ≤ 64 * a + 32 ∧ (25 * S % 64 = 32 → a % 2 = 0) := by
  unfold averageC roundHalfEven
  dsimp only
  split
  case isTrue habove => omega
  case isFalse =>
    split
    case isTrue hbelow => omega
    case isFalse htie => omega

theorem averageC_spec (S : Int) :
    64 * averageC S - 32 ≤ 25 * S ∧ 25 * S ≤ 64 * averageC S + 32 ∧ (25 * S % 64 = 32 → averageC S % 2 = 0) :=
  averageC_eq_iff.mp rfl

theorem averageC_neg (S : Int) : averageC (-S) = -averageC S := by
  have hS := averageC_spec S
  exact averageC_eq_iff.mpr (by omega)

/-- Rounding is exact on the sum of 64 equal values. -/
theorem averageC_mul_64 (q : Int) : averageC (64 * q) = 25 * q := averageC_eq_iff.mpr (by omega)

/-- A bound in hundredths that the exact average meets is met after rounding. -/
theorem le_averageC {S q : Int} (h : 64 * q ≤ S) : 25 * q ≤ averageC S := by
  have hS := averageC_spec S
  omega

theorem averageC_le {S q : Int} (h : S ≤ 64 * q) : averageC S ≤ 25 * q := by
  have hS := averageC_spec S
  omega

/-- Settles O49: each clause is arithmetic on the bounds of `averageC_spec`. -/
theorem averageRoundsHalfToEven : Obligations.AverageRoundsHalfToEven := by
  unfold Obligations.AverageRoundsHalfToEven
  intro S
  obtain ⟨hlo, hhi, heven⟩ := averageC_spec S
  have htie : 2 * (25 * S - 64 * averageC S).natAbs = 64 ↔ 25 * S % 64 = 32 := by omega
  exact ⟨by omega, fun h => heven (htie.mp h), htie, by omega, averageC_neg S, by decide⟩

/-! ### The thresholds -/

/-- The average of a frame lies between its extrema, in hundredths (R199). -/
theorem averageC_decodedPixels_range (pix : Vector Pixel 64) :
    25 * minOf (decodedPixels pix) ≤ averageC (decodedPixels pix).sum ∧
      averageC (decodedPixels pix).sum ≤ 25 * maxOf (decodedPixels pix) := by
  obtain ⟨-, hminLe⟩ := minOf_spec (decodedPixels_ne_nil pix)
  obtain ⟨-, hleMax⟩ := maxOf_spec (decodedPixels_ne_nil pix)
  have hlo := List.card_nsmul_le_sum (decodedPixels pix) _ hminLe
  have hhi := List.sum_le_card_nsmul (decodedPixels pix) _ hleMax
  rw [decodedPixels_length] at hlo hhi
  exact ⟨le_averageC (by simpa using hlo), averageC_le (by simpa using hhi)⟩

/-- R194 in degrees. -/
theorem hiU_degrees (qs : List Int) :
    ((frameStats qs).hiU : Rat) / 200 =
      ((frameStats qs).avgC : Rat) / 100 +
        (((frameStats qs).maxQ : Rat) / 4 - ((frameStats qs).avgC : Rat) / 100) / 2 := by
  simp only [frameStats]
  push_cast
  ring

/-- R195 in degrees. -/
theorem lowU_degrees (qs : List Int) :
    ((frameStats qs).lowU : Rat) / 200 =
      ((frameStats qs).avgC : Rat) / 100 -
        (((frameStats qs).minQ : Rat) / 4 - ((frameStats qs).avgC : Rat) / 100) / 2 := by
  simp only [frameStats]
  push_cast
  ring

/-- The average of a frame lies between its extrema, in degrees (R199). -/
theorem avgC_degrees_range (pix : Vector Pixel 64) :
    ((frameStats (decodedPixels pix)).minQ : Rat) / 4 ≤ ((frameStats (decodedPixels pix)).avgC : Rat) / 100 ∧
      ((frameStats (decodedPixels pix)).avgC : Rat) / 100 ≤ ((frameStats (decodedPixels pix)).maxQ : Rat) / 4 := by
  obtain ⟨hlo, hhi⟩ := averageC_decodedPixels_range pix
  have hlo' : (25 * (frameStats (decodedPixels pix)).minQ : Rat) ≤ (frameStats (decodedPixels pix)).avgC := by
    exact_mod_cast hlo
  have hhi' : ((frameStats (decodedPixels pix)).avgC : Rat) ≤ 25 * (frameStats (decodedPixels pix)).maxQ := by
    exact_mod_cast hhi
  exact ⟨by linarith, by linarith⟩

/-- 63 pixels at 0 °C and one at -512 °C: `low` is 244 °C, above the maximum. -/
def oneColdPixel : Vector Pixel 64 := (Vector.replicate 64 ⟨0, 0⟩).set 0 ⟨0x800, 0⟩

theorem maxQ_lt_lowU_oneColdPixel :
    50 * (frameStats (decodedPixels oneColdPixel)).maxQ < (frameStats (decodedPixels oneColdPixel)).lowU := by
  decide +kernel

/-- Settles O50: the average between the extrema, the thresholds in degrees, and the frame `oneColdPixel`. -/
theorem thresholdsAreOrdered : Obligations.ThresholdsAreOrdered := by
  unfold Obligations.ThresholdsAreOrdered
  refine ⟨fun pix => ?order, oneColdPixel, maxQ_lt_lowU_oneColdPixel⟩
  case order =>
    obtain ⟨hmin, hmax⟩ := avgC_degrees_range pix
    have hhi := hiU_degrees (decodedPixels pix)
    have hlow := lowU_degrees (decodedPixels pix)
    exact ⟨hmin, hmax, by linarith, by linarith, by linarith, by linarith⟩

/-! ### The bands -/

/-- A value in quarters of a degree, in the thresholds' two-hundredths. -/
theorem quarters_eq_twoHundredths (q : Int) : (q : Rat) / 4 = ((50 * q : Int) : Rat) / 200 := by
  push_cast
  ring

theorem threshold_le_iff (u q : Int) : (u : Rat) / 200 ≤ (q : Rat) / 4 ↔ u ≤ 50 * q := by
  rw [quarters_eq_twoHundredths, div_le_div_iff_of_pos_right (by norm_num), Int.cast_le]

theorem le_threshold_iff (u q : Int) : (q : Rat) / 4 ≤ (u : Rat) / 200 ↔ 50 * q ≤ u := by
  rw [quarters_eq_twoHundredths, div_le_div_iff_of_pos_right (by norm_num), Int.cast_le]

/-- Settles O51: the integer comparisons of `bandOf` are those of the thresholds in degrees. -/
theorem bandsCompareTemperatures : Obligations.BandsCompareTemperatures := by
  unfold Obligations.BandsCompareTemperatures
  intro qs q
  simp only [← hiU_degrees, ← lowU_degrees, ge_iff_le, threshold_le_iff, le_threshold_iff, bandOf]

theorem bandOf_maxQ (st : FrameStats) : bandOf st st.maxQ = .hottest := if_pos rfl

theorem band_code_le (b : Band) : b.code.toNat ≤ 4 := by cases b <;> decide

/-! ### A frame of equal pixels -/

theorem decodedPixels_uniform {pix : Vector Pixel 64} {v : Half} (h : ∀ i : Fin 64, pix[i].raw = v) :
    decodedPixels pix = List.replicate 64 (decodeRaw v) := by
  refine List.eq_replicate_iff.mpr ⟨decodedPixels_length pix, fun q hq => ?_⟩
  obtain ⟨i, rfl⟩ := (mem_decodedPixels_iff pix q).mp hq
  rw [h i]

theorem minOf_replicate {n : Nat} (hn : n ≠ 0) (q : Int) : minOf (List.replicate n q) = q :=
  List.eq_of_mem_replicate (minOf_spec (by simpa using hn)).1

theorem maxOf_replicate {n : Nat} (hn : n ≠ 0) (q : Int) : maxOf (List.replicate n q) = q :=
  List.eq_of_mem_replicate (maxOf_spec (by simpa using hn)).1

/-- The degenerate frame of R201. -/
theorem frameStats_replicate_64 (q : Int) :
    frameStats (List.replicate 64 q) =
      { minQ := q, maxQ := q, sum := 64 * q, avgC := 25 * q, hiU := 50 * q, lowU := 50 * q } := by
  have hsum : (List.replicate 64 q).sum = 64 * q := (List.sum_replicate 64 q).trans (nsmul_eq_mul 64 q)
  have hhi : 25 * q + 25 * q = 50 * q := by ring
  have hlow : 3 * (25 * q) - 25 * q = 50 * q := by ring
  simp only [frameStats, minOf_replicate (by decide : 64 ≠ 0), maxOf_replicate (by decide : 64 ≠ 0), hsum,
    averageC_mul_64, hhi, hlow]

/-- Settles O52: every pixel of a uniform frame is at its maximum. -/
theorem uniformFrameIsHottest : Obligations.UniformFrameIsHottest := by
  unfold Obligations.UniformFrameIsHottest
  refine ⟨fun pix v h => ?uniform, fun st q => band_code_le _⟩
  case uniform =>
    have hst := (congrArg frameStats (decodedPixels_uniform h)).trans (frameStats_replicate_64 (decodeRaw v))
    refine ⟨hst, fun i => ?band⟩
    case band =>
      have hraw : pix[i.val].raw = v := h i
      have hmax : bandOf (frameStats (decodedPixels pix)) (decodeRaw v) = .hottest := by
        rw [hst]
        exact bandOf_maxQ _
      simp only [Fin.getElem_fin, bandPixels_getElem, hraw, hmax, Band.code]

end Sys2Proof.Machine
end

section
/-! PROOFS. HALTED, the command errors, the interrupt output and the timer (60_exceptions.md R223-R227, R232, R240). -/

namespace Sys2Proof.Machine

/-! ### What HALTED holds -/

section
variable {s t : State}

/-- `t` has all that HALTED holds as `s` has it: the position's state, the fatal error, the wires' history and what was
acquired; and no cancel is newly pending (60_exceptions.md R223, R225). -/
def State.KeptInHalted (s t : State) : Prop :=
  t.seqState = s.seqState ∧ t.fatal = s.fatal ∧ t.errCode = s.errCode ∧ t.errInfo = s.errInfo ∧ t.trace = s.trace ∧
    t.pix = s.pix ∧ t.raw = s.raw ∧ t.frameCnt = s.frameCnt ∧ t.frameValid = s.frameValid ∧ t.initDone = s.initDone ∧
    (t.cancelPend = true → s.cancelPend = true)

theorem keptInHalted_refl (s : State) : s.KeptInHalted s :=
  ⟨rfl, rfl, rfl, rfl, rfl, rfl, rfl, rfl, rfl, rfl, id⟩

/-- HALTED is not busy (10_state.md R22). -/
theorem busy_eq_false_of_halted (hs : s.seqState = .halted) : s.busy = false := by
  simp [State.busy, SeqState.busy, hs]

/-- In HALTED every command but NOP is rejected, so none starts and no cancel is requested (60_exceptions.md R226). -/
theorem issueMove_keptInHalted {i : Instr} (m : IssueMove s i t) (hs : s.seqState = .halted) : s.KeptInHalted t := by
  have hidle : s.seqState ≠ .idle := by simp [hs]
  cases m with
  | nothing => exact keptInHalted_refl s
  | rejected => exact keptInHalted_refl s
  | transfer _ _ h => exact absurd h hidle
  | decoded _ h => exact absurd h hidle
  | initStarted h => exact absurd h hidle
  | frameStarted h => exact absurd h hidle
  | runStarted h => exact absurd h hidle
  | stopped hb => exact absurd hs (seqState_ne_halted_of_busy hb)

theorem hostMove_keptInHalted {l : HostLine} (m : HostMove s l t) (hs : s.seqState = .halted) : s.KeptInHalted t := by
  cases m with
  | command _ _ _ _ _ m => exact issueMove_keptInHalted m hs
  | _ => exact keptInHalted_refl s

/-- HALTED has no step of the sequencer, and no cancel is taken there, since it is not busy (60_exceptions.md R223,
43_acquisition.md R178). -/
theorem sequencerStep_halted (hs : s.seqState = .halted) : sequencerStep s = s := by
  simp [sequencerStep, busy_eq_false_of_halted hs, commandStep, hs]

theorem advanceTime_keptInHalted (δ : Rat) (s : State) : s.KeptInHalted (advanceTime δ s) := by
  unfold advanceTime
  split <;> exact keptInHalted_refl s

/-- The cancel input requests nothing in HALTED, which is not busy (43_acquisition.md R178). -/
theorem sampleCancel_keptInHalted (level : Bool) (hs : s.seqState = .halted) :
    s.KeptInHalted (sampleCancel level s) := by
  unfold sampleCancel
  split
  · exact ⟨rfl, rfl, rfl, rfl, rfl, rfl, rfl, rfl, rfl, rfl, by simp [busy_eq_false_of_halted hs]⟩
  · exact keptInHalted_refl s

theorem busStart_keptInHalted (s : State) : s.KeptInHalted (busStart s) := by
  unfold busStart
  split <;> exact keptInHalted_refl s

/-- Reset is the only way out of HALTED (60_exceptions.md R223). -/
theorem step_keptInHalted (hs : s.seqState = .halted) (hreset : ¬ s.resetsNext) (hstep : step s = .next t) :
    s.KeptInHalted t := by
  obtain ⟨es, n, hmove⟩ := step_cases s
  have he : (afterEvent s es n).seqState = .halted := hs
  rcases hmove with ⟨-, ls, m, v, e, hm⟩ | ⟨-, e⟩ | ⟨δ, -, e⟩ | ⟨b, -, e⟩ | ⟨b, hev, e⟩ | ⟨-, e⟩ <;>
    obtain rfl := Host.Outcome.next.inj (hstep.symm.trans e)
  · exact (hostMove_keptInHalted hm he :)
  · rw [sequencerStep_halted he]
    exact keptInHalted_refl s
  · exact advanceTime_keptInHalted δ (afterEvent s es n)
  · exact sampleCancel_keptInHalted b he
  · cases b with
    | false => exact absurd hev hreset
    | true => exact keptInHalted_refl s
  · exact busStart_keptInHalted (afterEvent s es n)

end

/-- Settles O30: no move of any agent but reset writes what HALTED holds. -/
theorem haltedIsFinalUntilReset : Obligations.HaltedIsFinalUntilReset := by
  unfold Obligations.HaltedIsFinalUntilReset
  intro s t hs hreset hstep
  obtain ⟨hstate, hkept⟩ := step_keptInHalted hs hreset hstep
  exact ⟨hstate.trans hs, hkept⟩

/-! ### Command errors -/

section
variable {s : State} (cause : CmdCause)

theorem raiseCmdErr_first (h : s.cmdErr = false) :
    raiseCmdErr cause s = { s with cmdErr := true, cmdCause := cause } := by
  simp [raiseCmdErr, h]

theorem raiseCmdErr_later (h : s.cmdErr = true) : raiseCmdErr cause s = s := by
  simp [raiseCmdErr, ← h]

/-- A write of 1 to STATUS bit 8 clears the command error and its cause (60_exceptions.md R227). -/
theorem step_clears_cmdErr {t u : State} {w : Word} (hr : s.rstN = true) (hw : s.Writes 3 w u)
    (h8 : w.getLsbD 8 = true) (hstep : step s = .next t) : t.cmdErr = false ∧ t.cmdCause = .none := by
  rw [step_of_writes hw, hostWrite_status ((writes_rstN hw).trans hr)] at hstep
  obtain rfl := Host.Outcome.next.inj hstep
  simp [writeStatus, h8]

/-- Of the registers below the pixel views only STATUS shows the command error (10_state.md R34). -/
theorem readLow_raiseCmdErr {n : Nat} (hn : n ≠ 3) : readLow (raiseCmdErr cause s) n = readLow s n := by
  unfold readLow
  split
  case h_3 => exact absurd rfl hn
  all_goals rfl

theorem readReg_raiseCmdErr {a : BitVec 8} (ha : a ≠ 3) : readReg (raiseCmdErr cause s) a = readReg s a := by
  have hn : a.toNat ≠ 3 := fun h => ha (BitVec.eq_of_toNat_eq h)
  simp only [readReg, State.pixel, raiseCmdErr_pix, readLow_raiseCmdErr cause hn]

end

/-- Settles O32: the flag keeps the first cause, `writeStatus` clears both, and only STATUS shows them. -/
theorem firstCommandErrorIsKept : Obligations.FirstCommandErrorIsKept := by
  unfold Obligations.FirstCommandErrorIsKept
  exact fun s cause => ⟨raiseCmdErr_first cause, raiseCmdErr_later cause,
    fun w t u hr hw h8 hstep => step_clears_cmdErr ((raiseCmdErr_rstN cause s).trans hr) hw h8 hstep,
    fun a ha => readReg_raiseCmdErr cause ha⟩

/-! ### The interrupt output -/

/-- IRQ_EN is bit 0 of CONFIG (10_state.md R32). -/
theorem configWord_irqEn (c : ConfigReg) : (configWord c).getLsbD 0 = c.irqEn := by
  simp only [configWord, BitVec.getLsbD_append]
  simp

/-- DONE, CANCELLED, CMD_ERR and FATAL are bits 6 to 9 of STATUS (10_state.md R34). -/
theorem statusWord_flags (s : State) :
    (statusWord s).getLsbD 6 = s.done ∧ (statusWord s).getLsbD 7 = s.cancelled ∧
      (statusWord s).getLsbD 8 = s.cmdErr ∧ (statusWord s).getLsbD 9 = s.fatal := by
  simp only [statusWord, BitVec.getLsbD_append]
  simp

/-- Settles O38: the bits the host reads are the flags that `irqO` combines. -/
theorem interruptOutputLevel : Obligations.InterruptOutputLevel := by
  unfold Obligations.InterruptOutputLevel
  intro s
  have hconfig : readReg s 1 = configWord s.config := rfl
  have hstatus : readReg s 3 = statusWord s := rfl
  obtain ⟨hdone, hcancelled, hcmdErr, hfatal⟩ := statusWord_flags s
  rw [hconfig, hstatus, configWord_irqEn, hdone, hcancelled, hcmdErr, hfatal]
  rfl

/-! ### The timer -/

/-- Settles O41: the scheduled step is the timer's, whose length is positive. -/
theorem timerOnlyAdvancesNow : Obligations.TimerOnlyAdvancesNow := by
  unfold Obligations.TimerOnlyAdvancesNow
  intro s δ es hδ h
  exact (step_of_schedule h).trans (congrArg _ (if_pos hδ))

end Sys2Proof.Machine
end

section
/-! PROOFS. The states a reset leaves (70_reset_and_hazards.md R250, R252). -/

namespace Sys2Proof.Machine

/-- A reset state is where applying reset leads, with `rst_n` still low (R250) or released since (R252): the draw of its
pixel buffer is the one that reset makes. -/
theorem State.IsReset.eq_applyReset {s : State} (h : s.IsReset) :
    ∃ u : State, s = applyReset u ∨ s = setReset true (applyReset u) := by
  obtain ⟨c, n, level, schedule, program, writes, reads, trace, rdata, rfl⟩ := h
  refine ⟨{ State.resetOf c n with
            schedule := schedule, program := program, writeReplies := writes, readReplies := reads
            trace := trace, hRdata := rdata, draws := n }, ?_⟩
  cases level with
  | false => exact .inl rfl
  | true => exact .inr rfl

/-- Settles O55: applying reset gives the invariant from any state, and releasing `rst_n` keeps it. -/
theorem resetStatesMeetTheInvariant : Obligations.ResetStatesMeetTheInvariant := by
  unfold Obligations.ResetStatesMeetTheInvariant
  refine ⟨⟨Config.defaults, 0, true, [], [], [], [], [], 0, rfl⟩, fun s h => ?_⟩
  obtain ⟨u, rfl | rfl⟩ := h.eq_applyReset
  · exact inv_applyReset u
  · exact inv_setReset true (inv_applyReset u)

end Sys2Proof.Machine
end

section
/-! PROOFS. That no step of any agent stops (log 18, log 2, log 5). -/

namespace Sys2Proof.Machine

/-- Settles O7: `step_cases` gives the next state agent by agent. Only the host's step could stop, through the command it
issues, and `exec_next` rules that out inside `step_cases`; each other agent's step is a function to `State`. -/
theorem everyStepHasANextState : Obligations.EveryStepHasANextState := by
  unfold Obligations.EveryStepHasANextState
  intro s
  obtain ⟨es, n, hagent⟩ := step_cases s
  rcases hagent with ⟨-, _, _, t, hhost, -⟩ | ⟨-, hsequencer⟩ | ⟨δ, -, htimer⟩ | ⟨level, -, hcancel⟩ |
    ⟨level, -, hreset⟩ | ⟨-, hbusStart⟩
  · exact ⟨t, hhost⟩
  · exact ⟨_, hsequencer⟩
  · exact ⟨_, htimer⟩
  · exact ⟨_, hcancel⟩
  · exact ⟨_, hreset⟩
  · exact ⟨_, hbusStart⟩

end Sys2Proof.Machine
end
